-- ==== Sys2Proof/Word.lean ====
section
/-! DEFINITION. The word types of CORE (spec/00_scope.md R9, R10): every one is unsigned, bit 0 the least
significant. A register index is a name of one of sixteen registers, so it is a `Fin 16`, not a bit vector. -/

namespace Sys2Proof

/-- One byte: a V register, a timer, a memory cell, an immediate `kk` (R9: V_WIDTH, DT and ST width). -/
abbrev Byte := BitVec 8

/-- Sixteen bits: an instruction word, I, PC, a stack entry, the key mask (R9). -/
abbrev Word := BitVec 16

/-- One framebuffer row: exactly 64 pixels, column 0 the most significant bit (R27, D30). -/
abbrev Row := BitVec 64

/-- The 12-bit address immediate `nnn` (R81). -/
abbrev Addr12 := BitVec 12

/-- The index of a general register V0..VF (R20, R71). -/
abbrev Reg := Fin 16

/-- VF, the flag register (R21). -/
abbrev vf : Reg := 15

end Sys2Proof
end

