-- ==== Sys2Proof/Config.lean ====
section
/-! DEFINITION. What an implementation fixes (spec/00_scope.md R9) and the one free value of CORE (R48).
The fixed sizes stand as numerals where they are used (4096 bytes, 32 rows, 64 columns, 16 entries, 5 bytes a
glyph). The named parameters ENTRY_PC, FONT_BASE, FONT_DATA, BORROW_MODE and VF_GUARDED are a
record of plain data that `State` carries and that no step writes (notes/assumptions/1.md), so a statement about every
state holds for every choice of them. -/

namespace Sys2Proof.Config

/-- The random draw of each Cxkk: free, under no law (R48, R216, D16). `Config.rnd k` is the draw number `k` of a run.
The constant has no body, so nothing can be proved of its value (notes/assumptions/2.md). -/
opaque rnd : Nat → Byte

/-- The default ENTRY_PC (R9, R261). PRESUMED by the spec itself: notes/assumptions/3.md. -/
abbrev defaultEntryPc : Word := 0x0200#16

/-- The default FONT_BASE (R9, R69). PRESUMED by the spec itself: notes/assumptions/4.md. -/
abbrev defaultFontBase : Word := 0x0000#16

end Sys2Proof.Config

namespace Sys2Proof

/-- BORROW_MODE (R129): STRICT sets the subtract flag on a strictly positive difference, NO_BORROW on a difference of
zero or more. -/
inductive BorrowMode where
  | strict
  | noBorrow
  deriving DecidableEq, Repr

/-- The opcodes with an `x` field (formats XKK, XYN, XOP of R82): those that VF_GUARDED may name (R9). -/
inductive XOp where
  | seImm | sneImm | seReg | ldImm | addImm
  | ldReg | orReg | andReg | xorReg | addReg | sub | shr | subn | shl
  | sneReg | rnd | drw | skp | sknp
  | ldVxDt | ldVxK | ldDtVx | ldStVx | addI | ldF | ldB | ldMemVx | ldVxMem
  deriving DecidableEq, Repr

/-- The named parameters of R9. -/
structure Params where
  /-- ENTRY_PC: where PC stands at reset and where the ROM is loaded (R261, R262). -/
  entryPc : Word
  /-- FONT_BASE: the address of glyph 0 (R193). -/
  fontBase : Word
  /-- FONT_DATA: the glyph bytes of the launch image, first byte at FONT_BASE (R9, R262). -/
  fontData : List Byte
  /-- BORROW_MODE (R129). -/
  borrowMode : BorrowMode
  /-- VF_GUARDED: the opcodes that fail with InvalidOperand when x = 0xF (R9, R122). -/
  vfGuarded : List XOp
  deriving DecidableEq, Repr

/-- The opcode is in VF_GUARDED. -/
def Params.guards (p : Params) (op : XOp) : Bool := p.vfGuarded.contains op

/-- The default VF_GUARDED: the nine 8xy_ opcodes (R9, R122). -/
def Params.eightXy : List XOp := [.ldReg, .orReg, .andReg, .xorReg, .addReg, .sub, .shr, .subn, .shl]

/-- The default parameters of R9. FONT_DATA has no default in the spec; the model's is no byte at all
(notes/assumptions/5.md). -/
def Params.default : Params where
  entryPc := Config.defaultEntryPc
  fontBase := Config.defaultFontBase
  fontData := []
  borrowMode := .strict
  vfGuarded := Params.eightXy

end Sys2Proof
end

