-- ==== Sys2Proof/Machine/State.lean ====
section
/-! DEFINITION. The architectural state of CORE (spec/10_state.md R20 to R34), the ways a step can stop, and the state
after reset (spec/70_reset_and_hazards.md R260). `params`, `draws` and `schedule` are the model's own fields: the named
parameters of R9, the number of the next random draw, and the transactions the host has queued. -/

namespace Sys2Proof.Machine

/-- The error outcomes of a STEP or a CYCLE, the values the fault latch holds (R230, R231). -/
inductive Err where
  /-- A word that is no instruction (R91), and every SYS word (R164). Code 1. -/
  | unknownOpcode
  /-- x = 0xF in an opcode of VF_GUARDED (R122). Code 2. -/
  | invalidOperand
  /-- CALL with SP = 16 (R162). Code 3. -/
  | stackOverflow
  /-- RET with SP = 0 (R163). Code 4. -/
  | stackUnderflow
  /-- A fetch with PC odd or above 0xFFE (R102). Code 5. -/
  | pcOutOfRange
  /-- Fx29 with V[x] above 0xF (R193). Code 6. -/
  | unmodelled
  deriving DecidableEq, Repr

/-- Why a step has no next state. -/
inductive Fault where
  /-- The STEP ends with this error and writes nothing (R106). Raised by an instruction's meaning, and by a word that
  does not decode. A CYCLE catches it into the fault latch and goes on to a next state (R109), so only a bare STEP
  transaction of the host stops with it. Safe: the source's driver may go on, and R251 has this model stop. -/
  | raised (e : Err)
  /-- A CYCLE while the fault latch holds `e` has no transition (R109). Raised by the cycle. Safe (D8). -/
  | faultLatched (e : Err)
  /-- A CYCLE while a key wait is pending has no transition until RESOLVE_KEY (R101, R103, R214). Raised by the cycle.
  Safe (D33): the host's queued RESOLVE_KEY is what ends the wait. -/
  | keyWaitHold (x : Reg)
  deriving DecidableEq, Repr

/-- Why a step is refused. -/
inductive Refusal where
  /-- The instruction has no meaning in the model. Raised by no arm: every row of the opcode table has its meaning. Safe. -/
  | notModelled (mnemonic : String)
  deriving DecidableEq, Repr

/-- The pending-key-wait marker (R31). -/
inductive KeyWait where
  | idle
  | waiting (x : Reg)
  deriving DecidableEq, Repr

/-- The selector of TIMER_WRITE (R44). -/
inductive TimerSel where
  | dt
  | st
  deriving DecidableEq, Repr

/-- The transactions of the block and its host (R40, R101, R246), one to a step of the machine. RESET is
`State.resetWith`: it begins a run and never occurs inside one (R263). -/
inductive HostMove where
  /-- The driver's fetch and STEP (R101). -/
  | cycle
  /-- A STEP of a word the driver gives, with no fetch (R41, R100). -/
  | step (w : Word)
  /-- One decrement of both timers (R246). -/
  | tick
  /-- TIMER_WRITE (R44). -/
  | timerWrite (sel : TimerSel) (b : Byte)
  /-- KEYPAD_WRITE (R45). -/
  | keypadWrite (mask : Word)
  /-- RESOLVE_KEY (R42, R215). -/
  | resolveKey (key : Byte)
  /-- MEM_LOAD (R46). -/
  | memLoad (a : Addr12) (b : Byte)
  /-- FB_READ, TIMER_READ and STATUS_READ, which change nothing (R43, R44, R47). -/
  | fbRead
  | timerRead
  | statusRead
  deriving DecidableEq, Repr

/-- Memory: address and byte pairs, addresses strictly rising and below 4096, no byte 0x00 (`Memory.wf`). -/
abbrev Memory := List Host.Cell

/-- What an address that is not listed reads as: memory is zeroed at reset (R26, R260). -/
abbrev unlistedByte : Byte := 0x00#8

/-- The state of CORE. -/
structure State where
  /-- V0..VF (R20), VF the flag register (R21). -/
  v : Vector Byte 16
  /-- The index register I (R22). -/
  i : Word
  /-- The program counter (R23). -/
  pc : Word
  /-- The stack pointer, 0 to 16: how many return addresses are held (R24, C2). -/
  sp : Fin 17
  /-- The sixteen stack entries (R25). -/
  stack : Vector Word 16
  /-- The 4096 bytes of memory (R26). -/
  mem : Memory
  /-- The framebuffer: 32 rows, column c of a row at bit 63 - c (R27). -/
  fb : Vector Row 32
  /-- The delay timer (R28). -/
  dt : Byte
  /-- The sound timer (R29). -/
  st : Byte
  /-- The key mask: bit k set when key k is pressed (R30). -/
  keypad : Word
  /-- The pending-key-wait marker (R31). -/
  wait : KeyWait
  /-- The fault latch (R32). -/
  fault : Option Err
  /-- The named parameters of R9, which no step writes. -/
  params : Params
  /-- The number of the next random draw (R48): the model's own field. -/
  draws : Nat
  /-- The transactions the host has queued, the next one first; empty: the driver issues CYCLEs (R40, R49, R251). -/
  schedule : List HostMove
  deriving DecidableEq, Repr

/-- The outcome of a meaning or a step. -/
abbrev Res := Host.Outcome State Fault Refusal

/-- RESET under given parameters (R260). -/
def State.resetWith (p : Params) : State where
  v := Vector.replicate 16 0x00#8
  i := 0x0000#16
  pc := p.entryPc
  sp := 0
  stack := Vector.replicate 16 0x0000#16
  mem := []
  fb := Vector.replicate 32 0#64
  dt := 0x00#8
  st := 0x00#8
  keypad := 0x0000#16
  wait := .idle
  fault := none
  params := p
  draws := 0
  schedule := []

/-- The machine right after reset, under the default parameters of R9 (R260). -/
def State.reset : State := State.resetWith Params.default

end Sys2Proof.Machine
end

