-- ==== Sys2Proof/Machine/Flags.lean ====
section
/-! DEFINITION. The flag values of CORE. VF is the only flag (R21), and it takes the byte 0 or 1. -/

namespace Sys2Proof.Machine

/-- A condition as the byte VF takes. -/
def flagByte (c : Bool) : Byte := if c then 0x01#8 else 0x00#8

/-- 8xy4: "VF = 1 iff Vx+Vy > 255 before truncation" (R127). -/
def carryFlag (a b : Byte) : Byte := flagByte (decide (a.toNat + b.toNat > 255))

/-- `subflag(a, b)`, `a` the minuend (R129): STRICT tests for a difference above zero, NO_BORROW for one of at least zero. -/
def subFlag : BorrowMode → Byte → Byte → Byte
  | .strict, a, b => flagByte (decide (a.toNat > b.toNat))
  | .noBorrow, a, b => flagByte (decide (a.toNat ≥ b.toNat))

/-- 8xy6: bit 0 of the source before the shift (R130). -/
def lsbFlag (b : Byte) : Byte := b &&& 0x01#8

/-- 8xyE: bit 7 of the source before the shift (R132). -/
def msbFlag (b : Byte) : Byte := (b >>> 7) &&& 0x01#8

/-- Dxyn: the collision bits of all rows, reduced to 0 or 1 (R143). -/
def collisionFlag (coll : Row) : Byte := flagByte (coll != 0#64)

end Sys2Proof.Machine
end

