-- ==== Sys2Proof/Syntax.lean ====
section
/-! DEFINITION. The instructions of CORE: one constructor per row of spec/opcode_table.json, in the table's
order (spec/30_encoding.md R94). The field names are the spec's (R13, R81): `x`, `y` register indices, `kk` a byte,
`nnn` a 12-bit address, `n` a row count. -/

namespace Sys2Proof

inductive Instr where
  /-- 0nnn, row 1: named by the 35-opcode count, given no operation (R164). -/
  | sys (nnn : Addr12)
  /-- 00E0, row 2 (R146). -/
  | cls
  /-- 00EE, row 3 (R163). -/
  | ret
  /-- 1nnn, row 4 (R160). -/
  | jp (nnn : Addr12)
  /-- 2nnn, row 5 (R162). -/
  | call (nnn : Addr12)
  /-- 3xkk, row 6 (R166). -/
  | seImm (x : Reg) (kk : Byte)
  /-- 4xkk, row 7 (R167). -/
  | sneImm (x : Reg) (kk : Byte)
  /-- 5xy0, row 8 (R168). -/
  | seReg (x y : Reg)
  /-- 6xkk, row 9 (R120). -/
  | ldImm (x : Reg) (kk : Byte)
  /-- 7xkk, row 10 (R121). -/
  | addImm (x : Reg) (kk : Byte)
  /-- 8xy0, row 11 (R123). -/
  | ldReg (x y : Reg)
  /-- 8xy1, row 12 (R124). -/
  | orReg (x y : Reg)
  /-- 8xy2, row 13 (R125). -/
  | andReg (x y : Reg)
  /-- 8xy3, row 14 (R126). -/
  | xorReg (x y : Reg)
  /-- 8xy4, row 15 (R127). -/
  | addReg (x y : Reg)
  /-- 8xy5, row 16 (R128). -/
  | sub (x y : Reg)
  /-- 8xy6, row 17 (R130). -/
  | shr (x y : Reg)
  /-- 8xy7, row 18 (R131). -/
  | subn (x y : Reg)
  /-- 8xyE, row 19 (R132). -/
  | shl (x y : Reg)
  /-- 9xy0, row 20 (R169). -/
  | sneReg (x y : Reg)
  /-- Annn, row 21 (R191). -/
  | ldI (nnn : Addr12)
  /-- Bnnn, row 22 (R161). -/
  | jpV0 (nnn : Addr12)
  /-- Cxkk, row 23 (R216). -/
  | rnd (x : Reg) (kk : Byte)
  /-- Dxyn, row 24 (R144). -/
  | drw (x y : Reg) (n : Fin 16)
  /-- Ex9E, row 25 (R170). -/
  | skp (x : Reg)
  /-- ExA1, row 26 (R171). -/
  | sknp (x : Reg)
  /-- Fx07, row 27 (R210). -/
  | ldVxDt (x : Reg)
  /-- Fx0A, row 28 (R213). -/
  | ldVxK (x : Reg)
  /-- Fx15, row 29 (R211). -/
  | ldDtVx (x : Reg)
  /-- Fx18, row 30 (R212). -/
  | ldStVx (x : Reg)
  /-- Fx1E, row 31 (R192). -/
  | addI (x : Reg)
  /-- Fx29, row 32 (R193). -/
  | ldF (x : Reg)
  /-- Fx33, row 33 (R194). -/
  | ldB (x : Reg)
  /-- Fx55, row 34 (R196). -/
  | ldMemVx (x : Reg)
  /-- Fx65, row 35 (R197). -/
  | ldVxMem (x : Reg)
  deriving DecidableEq, Repr

end Sys2Proof
end

