-- ==== Sys2Proof/Decode.lean ====
section
/-! DEFINITION. Decoding and encoding of the 16-bit instruction word (spec/30_encoding.md).
`decode` is the two-level lookup of R84, total on all 65536 words. It names the row of the opcode table (R94) that a
word belongs to, SYS among them: a SYS word has the constructor `sys`, whose meaning is the outcome UnknownOpcode of
R85 and R164 (notes/assumptions/6.md), so a STEP of it ends exactly as R84's decode failure does. `decodesTo` is R84's
own answer, in which a SYS word is UnknownOpcode at decode. -/

namespace Sys2Proof

/-- Why bytes are no instruction. -/
inductive DecodeError where
  /-- The word matches no row of the opcode table (R84, R91). -/
  | unknownOpcode
  /-- Fewer than the two bytes of an instruction are there (R80). No step meets this: a fetch reads both bytes. -/
  | truncated
  deriving DecidableEq, Repr

/-! The fields of R81. -/

def opClass (w : Word) : BitVec 4 := w.extractLsb' 12 4
def fieldX (w : Word) : Reg := (w.extractLsb' 8 4).toFin
def fieldY (w : Word) : Reg := (w.extractLsb' 4 4).toFin
def fieldN (w : Word) : Fin 16 := (w.extractLsb' 0 4).toFin
def fieldKk (w : Word) : Byte := w.extractLsb' 0 8
def fieldNnn (w : Word) : Addr12 := w.extractLsb' 0 12

/-- Big-endian: the byte at the lower address is `w[15:8]` (R62). -/
def wordOfBytes (hi lo : Byte) : Word := (hi.setWidth 16 <<< 8) ||| lo.setWidth 16

/-- The two bytes of a word in memory order (R62). -/
def hiByte (w : Word) : Byte := w.extractLsb' 8 8
def loByte (w : Word) : Byte := w.extractLsb' 0 8

/-- Class 0x0: the two full words CLS and RET, and the SYS form for the others (R85, R94). -/
def decodeClass0 (w : Word) : Except DecodeError Instr :=
  if w = 0x00E0#16 then .ok .cls
  else if w = 0x00EE#16 then .ok .ret
  else .ok (.sys (fieldNnn w))

/-- Class 0x8: the low nibble selects (R86). -/
def decodeClass8 (w : Word) : Except DecodeError Instr :=
  match (fieldN w).val with
  | 0x0 => .ok (.ldReg (fieldX w) (fieldY w))
  | 0x1 => .ok (.orReg (fieldX w) (fieldY w))
  | 0x2 => .ok (.andReg (fieldX w) (fieldY w))
  | 0x3 => .ok (.xorReg (fieldX w) (fieldY w))
  | 0x4 => .ok (.addReg (fieldX w) (fieldY w))
  | 0x5 => .ok (.sub (fieldX w) (fieldY w))
  | 0x6 => .ok (.shr (fieldX w) (fieldY w))
  | 0x7 => .ok (.subn (fieldX w) (fieldY w))
  | 0xE => .ok (.shl (fieldX w) (fieldY w))
  | _ => .error .unknownOpcode

/-- Class 0xE: the low byte selects (R87). -/
def decodeClassE (w : Word) : Except DecodeError Instr :=
  match (fieldKk w).toNat with
  | 0x9E => .ok (.skp (fieldX w))
  | 0xA1 => .ok (.sknp (fieldX w))
  | _ => .error .unknownOpcode

/-- Class 0xF: the low byte selects (R88). -/
def decodeClassF (w : Word) : Except DecodeError Instr :=
  match (fieldKk w).toNat with
  | 0x07 => .ok (.ldVxDt (fieldX w))
  | 0x0A => .ok (.ldVxK (fieldX w))
  | 0x15 => .ok (.ldDtVx (fieldX w))
  | 0x18 => .ok (.ldStVx (fieldX w))
  | 0x1E => .ok (.addI (fieldX w))
  | 0x29 => .ok (.ldF (fieldX w))
  | 0x33 => .ok (.ldB (fieldX w))
  | 0x55 => .ok (.ldMemVx (fieldX w))
  | 0x65 => .ok (.ldVxMem (fieldX w))
  | _ => .error .unknownOpcode

/-- The row of the opcode table a word belongs to (R84, R94), total on all words. -/
def decode (w : Word) : Except DecodeError Instr :=
  match (opClass w).toNat with
  | 0x0 => decodeClass0 w
  | 0x1 => .ok (.jp (fieldNnn w))
  | 0x2 => .ok (.call (fieldNnn w))
  | 0x3 => .ok (.seImm (fieldX w) (fieldKk w))
  | 0x4 => .ok (.sneImm (fieldX w) (fieldKk w))
  -- R89: a nonzero low nibble of classes 5 and 9 is no instruction
  | 0x5 => if (fieldN w).val = 0 then .ok (.seReg (fieldX w) (fieldY w)) else .error .unknownOpcode
  | 0x6 => .ok (.ldImm (fieldX w) (fieldKk w))
  | 0x7 => .ok (.addImm (fieldX w) (fieldKk w))
  | 0x8 => decodeClass8 w
  | 0x9 => if (fieldN w).val = 0 then .ok (.sneReg (fieldX w) (fieldY w)) else .error .unknownOpcode
  | 0xA => .ok (.ldI (fieldNnn w))
  | 0xB => .ok (.jpV0 (fieldNnn w))
  | 0xC => .ok (.rnd (fieldX w) (fieldKk w))
  | 0xD => .ok (.drw (fieldX w) (fieldY w) (fieldN w))
  | 0xE => decodeClassE w
  | 0xF => decodeClassF w
  -- a nibble has no other value
  | _ => .error .unknownOpcode

/-- The instruction has an operation: all but SYS (R92: "one of the 34 executing instructions"). -/
def Instr.executes : Instr → Bool
  | .sys _ => false
  | _ => true

/-- R84's decode function as it stands there: a SYS word is UnknownOpcode already at decode. -/
def decodesTo (w : Word) : Except DecodeError Instr :=
  match decode w with
  | .ok i => if i.executes then .ok i else .error .unknownOpcode
  | .error e => .error e

/-- Decode the instruction at the head of a list of bytes and leave the rest, total on any bytes (R62, R80). -/
def decodeBytes : List Byte → Except DecodeError (Instr × List Byte)
  | hi :: lo :: rest =>
    match decode (wordOfBytes hi lo) with
    | .ok i => .ok (i, rest)
    | .error e => .error e
  | _ => .error .truncated

/-- An instruction word given as a number of `nbits` bits, in the table's numbering. -/
def tableWord (nbits w : Nat) : Word := BitVec.ofNat 16 (w % 2 ^ nbits)

/-- What the decoder reads from a word of the opcode table, laid out in memory order. -/
def decodeTableWord (nbits w : Nat) : Option Instr :=
  match decodeBytes [hiByte (tableWord nbits w), loByte (tableWord nbits w)] with
  | .ok (i, _) => some i
  | .error _ => none

/-! The encoder, from the same table (R82, R94). -/

/-- A register index or row count as its nibble. -/
def nibble (k : Fin 16) : BitVec 4 := BitVec.ofFin k

/-- Formats ADDR, XKK and XYN of R82. XOP is XKK with a fixed low byte. -/
def encAddr (c : BitVec 4) (nnn : Addr12) : Word := c ++ nnn
def encXkk (c : BitVec 4) (x : Reg) (kk : Byte) : Word := c ++ (nibble x ++ kk)
def encXyn (c : BitVec 4) (x y : Reg) (n : Fin 16) : Word := c ++ (nibble x ++ (nibble y ++ nibble n))

/-- The word of an instruction (R94). -/
def encode : Instr → Word
  | .sys nnn => encAddr 0x0 nnn
  | .cls => 0x00E0#16
  | .ret => 0x00EE#16
  | .jp nnn => encAddr 0x1 nnn
  | .call nnn => encAddr 0x2 nnn
  | .seImm x kk => encXkk 0x3 x kk
  | .sneImm x kk => encXkk 0x4 x kk
  | .seReg x y => encXyn 0x5 x y 0x0
  | .ldImm x kk => encXkk 0x6 x kk
  | .addImm x kk => encXkk 0x7 x kk
  | .ldReg x y => encXyn 0x8 x y 0x0
  | .orReg x y => encXyn 0x8 x y 0x1
  | .andReg x y => encXyn 0x8 x y 0x2
  | .xorReg x y => encXyn 0x8 x y 0x3
  | .addReg x y => encXyn 0x8 x y 0x4
  | .sub x y => encXyn 0x8 x y 0x5
  | .shr x y => encXyn 0x8 x y 0x6
  | .subn x y => encXyn 0x8 x y 0x7
  | .shl x y => encXyn 0x8 x y 0xE
  | .sneReg x y => encXyn 0x9 x y 0x0
  | .ldI nnn => encAddr 0xA nnn
  | .jpV0 nnn => encAddr 0xB nnn
  | .rnd x kk => encXkk 0xC x kk
  | .drw x y n => encXyn 0xD x y n
  | .skp x => encXkk 0xE x 0x9E
  | .sknp x => encXkk 0xE x 0xA1
  | .ldVxDt x => encXkk 0xF x 0x07
  | .ldVxK x => encXkk 0xF x 0x0A
  | .ldDtVx x => encXkk 0xF x 0x15
  | .ldStVx x => encXkk 0xF x 0x18
  | .addI x => encXkk 0xF x 0x1E
  | .ldF x => encXkk 0xF x 0x29
  | .ldB x => encXkk 0xF x 0x33
  | .ldMemVx x => encXkk 0xF x 0x55
  | .ldVxMem x => encXkk 0xF x 0x65

/-- A row of the opcode table: `w` matches it when `w & mask = value` (R94). -/
structure OpRow where
  mask : Word
  value : Word
  deriving DecidableEq, Repr

/-- The word matches the row. -/
def OpRow.accepts (r : OpRow) (w : Word) : Bool := (w &&& r.mask) == r.value

/-- Each instruction's row of the opcode table, as the table prints it (R94). -/
def Instr.row : Instr → OpRow
  | .sys _ => ⟨0xF000, 0x0000⟩
  | .cls => ⟨0xFFFF, 0x00E0⟩
  | .ret => ⟨0xFFFF, 0x00EE⟩
  | .jp _ => ⟨0xF000, 0x1000⟩
  | .call _ => ⟨0xF000, 0x2000⟩
  | .seImm _ _ => ⟨0xF000, 0x3000⟩
  | .sneImm _ _ => ⟨0xF000, 0x4000⟩
  | .seReg _ _ => ⟨0xF00F, 0x5000⟩
  | .ldImm _ _ => ⟨0xF000, 0x6000⟩
  | .addImm _ _ => ⟨0xF000, 0x7000⟩
  | .ldReg _ _ => ⟨0xF00F, 0x8000⟩
  | .orReg _ _ => ⟨0xF00F, 0x8001⟩
  | .andReg _ _ => ⟨0xF00F, 0x8002⟩
  | .xorReg _ _ => ⟨0xF00F, 0x8003⟩
  | .addReg _ _ => ⟨0xF00F, 0x8004⟩
  | .sub _ _ => ⟨0xF00F, 0x8005⟩
  | .shr _ _ => ⟨0xF00F, 0x8006⟩
  | .subn _ _ => ⟨0xF00F, 0x8007⟩
  | .shl _ _ => ⟨0xF00F, 0x800E⟩
  | .sneReg _ _ => ⟨0xF00F, 0x9000⟩
  | .ldI _ => ⟨0xF000, 0xA000⟩
  | .jpV0 _ => ⟨0xF000, 0xB000⟩
  | .rnd _ _ => ⟨0xF000, 0xC000⟩
  | .drw _ _ _ => ⟨0xF000, 0xD000⟩
  | .skp _ => ⟨0xF0FF, 0xE09E⟩
  | .sknp _ => ⟨0xF0FF, 0xE0A1⟩
  | .ldVxDt _ => ⟨0xF0FF, 0xF007⟩
  | .ldVxK _ => ⟨0xF0FF, 0xF00A⟩
  | .ldDtVx _ => ⟨0xF0FF, 0xF015⟩
  | .ldStVx _ => ⟨0xF0FF, 0xF018⟩
  | .addI _ => ⟨0xF0FF, 0xF01E⟩
  | .ldF _ => ⟨0xF0FF, 0xF029⟩
  | .ldB _ => ⟨0xF0FF, 0xF033⟩
  | .ldMemVx _ => ⟨0xF0FF, 0xF055⟩
  | .ldVxMem _ => ⟨0xF0FF, 0xF065⟩

/-- The rows of the 34 executing instructions, rows 2 to 35 of the table (R92, R94). -/
def executingRows : List OpRow :=
  [⟨0xFFFF, 0x00E0⟩, ⟨0xFFFF, 0x00EE⟩, ⟨0xF000, 0x1000⟩, ⟨0xF000, 0x2000⟩, ⟨0xF000, 0x3000⟩,
   ⟨0xF000, 0x4000⟩, ⟨0xF00F, 0x5000⟩, ⟨0xF000, 0x6000⟩, ⟨0xF000, 0x7000⟩]
  ++ [⟨0xF00F, 0x8000⟩, ⟨0xF00F, 0x8001⟩, ⟨0xF00F, 0x8002⟩, ⟨0xF00F, 0x8003⟩, ⟨0xF00F, 0x8004⟩,
   ⟨0xF00F, 0x8005⟩, ⟨0xF00F, 0x8006⟩, ⟨0xF00F, 0x8007⟩, ⟨0xF00F, 0x800E⟩]
  ++ [⟨0xF00F, 0x9000⟩, ⟨0xF000, 0xA000⟩, ⟨0xF000, 0xB000⟩, ⟨0xF000, 0xC000⟩, ⟨0xF000, 0xD000⟩,
   ⟨0xF0FF, 0xE09E⟩, ⟨0xF0FF, 0xE0A1⟩]
  ++ [⟨0xF0FF, 0xF007⟩, ⟨0xF0FF, 0xF00A⟩, ⟨0xF0FF, 0xF015⟩, ⟨0xF0FF, 0xF018⟩, ⟨0xF0FF, 0xF01E⟩,
   ⟨0xF0FF, 0xF029⟩, ⟨0xF0FF, 0xF033⟩, ⟨0xF0FF, 0xF055⟩, ⟨0xF0FF, 0xF065⟩]

end Sys2Proof
end

