-- ==== Sys2Proof/Machine/Ops.lean ====
section
/-! DEFINITION. The named operations over registers and memory, the fetch, and the one operation that records an
error (spec/20_memory.md, spec/40_step.md). Every read and write of a meaning goes through them. -/

namespace Sys2Proof.Machine

/-! ## Memory (R60 to R68) -/

/-- The byte at an address. -/
def Memory.read : Memory → Nat → Byte
  | [], _ => unlistedByte
  | (a, b) :: m, k => if a = k then b else Memory.read m k

/-- Write one byte, keeping the canonical form. -/
def Memory.write : Memory → Nat → Byte → Memory
  | [], k, b => if b = unlistedByte then [] else [(k, b)]
  | (a, c) :: m, k, b =>
    if a < k then (a, c) :: Memory.write m k b
    else if a = k then (if b = unlistedByte then m else (k, b) :: m)
    else if b = unlistedByte then (a, c) :: m
    else (k, b) :: (a, c) :: m

/-- Canonical from address `lo` on: addresses strictly rising from `lo` and below 4096, no byte that an unlisted
address reads as. -/
def Memory.wfFrom (lo : Nat) : Memory → Bool
  | [] => true
  | (a, b) :: m => decide (lo ≤ a) && decide (a < 4096) && (b != unlistedByte) && Memory.wfFrom (a + 1) m

/-- The canonical form of a memory. -/
def Memory.wf (m : Memory) : Bool := Memory.wfFrom 0 m

/-- Byte `k` of an access at base `base` is at `(base + k) mod 4096` (R61, R190). -/
def effAddr (base : Word) (k : Nat) : Nat := (base.toNat + k) % 4096

/-- Read the byte at an address, reduced modulo 4096 (R61). -/
def State.readByte (s : State) (a : Nat) : Byte := s.mem.read (a % 4096)

/-- Write the bytes from byte `k` of an access at `base` on, one address each (R61, R66). -/
def storeFrom (base : Word) : Nat → List Byte → Memory → Memory
  | _, [], m => m
  | k, b :: bs, m => storeFrom base (k + 1) bs (m.write (effAddr base k) b)

/-- Write bytes at `base`, `base + 1`, and so on (R66). -/
def State.storeBytes (s : State) (base : Word) (bs : List Byte) : State :=
  { s with mem := storeFrom base 0 bs s.mem }

/-! ## Registers (R20 to R31) -/

/-- `V[r]` (R20): no register is hard-wired. -/
def State.getV (s : State) (r : Reg) : Byte := s.v[r.val]

/-- `V[r] <- b` (R20). -/
def State.setV (s : State) (r : Reg) (b : Byte) : State := { s with v := s.v.set r.val b }

/-- The result into `V[x]` and the flag into VF. The flag is the write that stands when x is VF (R105, R122). -/
def State.setVFlag (s : State) (x : Reg) (b flag : Byte) : State := (s.setV x b).setV vf flag

/-- `V0..Vx`, the bytes Fx55 stores (R196). -/
def State.regsTo (s : State) (x : Reg) : List Byte := s.v.toList.take (x.val + 1)

/-- `V[k] <- mem[(I + k) mod 4096]` for k = 0..x (R197). -/
def State.loadRegs (s : State) (x : Reg) : State :=
  { s with v := Vector.ofFn fun k : Fin 16 => if k ≤ x then s.readByte (effAddr s.i k.val) else s.getV k }

def State.setI (s : State) (w : Word) : State := { s with i := w }
def State.setPc (s : State) (w : Word) : State := { s with pc := w }
def State.setFb (s : State) (fb : Vector Row 32) : State := { s with fb := fb }
def State.setDt (s : State) (b : Byte) : State := { s with dt := b }
def State.setSt (s : State) (b : Byte) : State := { s with st := b }
def State.setKeypad (s : State) (mask : Word) : State := { s with keypad := mask }
def State.setWait (s : State) (w : KeyWait) : State := { s with wait := w }
def State.setSchedule (s : State) (q : List HostMove) : State := { s with schedule := q }

/-- The next draw is spent (R48). -/
def State.spendDraw (s : State) : State := { s with draws := s.draws + 1 }

/-- One instruction width further, modulo 2^16: the fetch's increment (R101) and a taken skip (R165). -/
def State.advancePc (s : State) : State := s.setPc (s.pc + 2#16)

/-- `stack[SP] <- ret; SP <- SP + 1`, with a place left (R162). -/
def State.push (s : State) (ret : Word) (h : s.sp.val < 16) : State :=
  { s with stack := s.stack.set s.sp.val ret h, sp := ⟨s.sp.val + 1, by omega⟩ }

/-- The popped address, `stack[SP - 1]`, with an address held (R163). -/
def State.top (s : State) (h : 0 < s.sp.val) : Word := s.stack[s.sp.val - 1]'(by have := s.sp.isLt; omega)

/-- `SP <- SP - 1`. The entry is not cleared (R25, R163). -/
def State.pop (s : State) : State := { s with sp := ⟨s.sp.val - 1, by have := s.sp.isLt; omega⟩ }

/-! ## Errors (R106, R109, R234)

An error saves no state, changes no mode and transfers control nowhere (R234), and there is no return from it (R235):
raising ends the STEP with nothing written, and the CYCLE around the STEP records the outcome in the latch. -/

/-- `raise E`: the STEP ends with the outcome and no state write (R11, R106). -/
def raise (e : Err) : Res := .fault (.raised e)

/-- The fault latch takes the outcome (R32, R109). -/
def State.latch (s : State) (e : Err) : State := { s with fault := some e }

/-- The number of an error outcome on a result port (R230, R231). -/
def Err.code : Err → Nat
  | .unknownOpcode => 1
  | .invalidOperand => 2
  | .stackOverflow => 3
  | .stackUnderflow => 4
  | .pcOutOfRange => 5
  | .unmodelled => 6

/-- The number a STEP's outcome has on a result port: 0 for Ok, a completed instruction and the no-op under a key wait alike,
and the error's own number otherwise (R230, R231, D9). A CYCLE that has no transition, and a refusal, are no outcome of a STEP. -/
def resultCode : Res → Option Nat
  | .next _ => some 0
  | .fault (.raised e) => some e.code
  | .fault (.faultLatched _) => none
  | .fault (.keyWaitHold _) => none
  | .refused _ => none

/-- A CYCLE's answer to the outcome of its STEP, `s` the state the STEP saw: an error goes to the latch, and everything
else the state holds, the fetch's PC increment included, stands (R106, R109). -/
def catchError (s : State) : Res → Res
  | .next t => .next t
  | .fault (.raised e) => .next (s.latch e)
  | .fault (.faultLatched e) => .fault (.faultLatched e)
  | .fault (.keyWaitHold x) => .fault (.keyWaitHold x)
  | .refused r => .refused r

/-! ## The fetch (R63, R65, R102) -/

/-- PC may be fetched from: even and at most 0xFFE (R65). -/
def fetchable (pc : Word) : Bool := pc.toNat % 2 == 0 && decide (pc.toNat ≤ 0xFFE)

/-- `MemRead(a, 2)`: big-endian (R62). -/
def State.wordAt (s : State) (a : Word) : Word := wordOfBytes (s.readByte a.toNat) (s.readByte (a.toNat + 1))

/-- The word the fetch reads, at PC (R63). -/
def State.fetchWord (s : State) : Word := s.wordAt s.pc

/-- Place a word where the next CYCLE fetches, and remove what keeps that CYCLE from running: queued transactions, a
key wait, a latched fault. PC stays where it is if it may be fetched from (notes/assumptions/8.md). -/
def State.placeWord (s : State) (w : Word) : State :=
  let pc := if fetchable s.pc then s.pc else Config.defaultEntryPc
  { s with
    pc := pc
    mem := (s.mem.write (effAddr pc 0) (hiByte w)).write (effAddr pc 1) (loByte w)
    wait := .idle
    fault := none
    schedule := [] }

end Sys2Proof.Machine
end

