-- ==== Sys2Proof/Machine/Operands.lean ====
section
/-! DEFINITION. Operand forms: zero-extended immediates (R83), the VF check of VF_GUARDED (R122), the key test (R172). -/

namespace Sys2Proof.Machine

/-- `zext_16(nnn)` (R83). -/
def zextAddr (nnn : Addr12) : Word := nnn.setWidth 16

/-- `zext_16(V[x])` (R161, R192). -/
def zextByte (b : Byte) : Word := b.setWidth 16

/-- The opcode is in VF_GUARDED and its `x` names VF (R9, R122). -/
def State.blocked (s : State) (op : XOp) (x : Reg) : Bool := (x == vf) && s.params.guards op

/-- The operand check that comes before everything else of an instruction with an `x` field (R108, R122). -/
def guarded (op : XOp) (x : Reg) (s : State) (r : Res) : Res :=
  if s.blocked op x then raise .invalidOperand else r

/-- `pressed(v)`: a key number below 16 whose bit of the key mask is 1 (R172). -/
def State.pressed (s : State) (b : Byte) : Bool := decide (b.toNat < 16) && s.keypad.getLsbD b.toNat

/-- A skip: taken, PC moves one more instruction width; not taken, nothing is written (R165). -/
def State.skipIf (s : State) (c : Bool) : State := if c then s.advancePc else s

/-- The `x` operand of an instruction and the name VF_GUARDED knows the opcode by (R9, R82). -/
def xOperand : Instr → Option (XOp × Reg)
  | .sys _ => none
  | .cls => none
  | .ret => none
  | .jp _ => none
  | .call _ => none
  | .seImm x _ => some (.seImm, x)
  | .sneImm x _ => some (.sneImm, x)
  | .seReg x _ => some (.seReg, x)
  | .ldImm x _ => some (.ldImm, x)
  | .addImm x _ => some (.addImm, x)
  | .ldReg x _ => some (.ldReg, x)
  | .orReg x _ => some (.orReg, x)
  | .andReg x _ => some (.andReg, x)
  | .xorReg x _ => some (.xorReg, x)
  | .addReg x _ => some (.addReg, x)
  | .sub x _ => some (.sub, x)
  | .shr x _ => some (.shr, x)
  | .subn x _ => some (.subn, x)
  | .shl x _ => some (.shl, x)
  | .sneReg x _ => some (.sneReg, x)
  | .ldI _ => none
  | .jpV0 _ => none
  | .rnd x _ => some (.rnd, x)
  | .drw x _ _ => some (.drw, x)
  | .skp x => some (.skp, x)
  | .sknp x => some (.sknp, x)
  | .ldVxDt x => some (.ldVxDt, x)
  | .ldVxK x => some (.ldVxK, x)
  | .ldDtVx x => some (.ldDtVx, x)
  | .ldStVx x => some (.ldStVx, x)
  | .addI x => some (.addI, x)
  | .ldF x => some (.ldF, x)
  | .ldB x => some (.ldB, x)
  | .ldMemVx x => some (.ldMemVx, x)
  | .ldVxMem x => some (.ldVxMem, x)

end Sys2Proof.Machine
end

