-- ==== Sys2Proof/Machine/Alu.lean ====
section
/-! DEFINITION. Register, immediate and arithmetic/logic instructions (spec/41_alu.md). Every right-hand side reads
`s`, the state before the step. Byte arithmetic is modulo 256 (R133). -/

namespace Sys2Proof.Machine

/-- 6xkk (R120). -/
def execLdImm (x : Reg) (kk : Byte) (s : State) : Res := guarded .ldImm x s (.next (s.setV x kk))

/-- 7xkk: VF is not written as a flag (R121). -/
def execAddImm (x : Reg) (kk : Byte) (s : State) : Res := guarded .addImm x s (.next (s.setV x (s.getV x + kk)))

/-- 8xy0 (R123). -/
def execLdReg (x y : Reg) (s : State) : Res := guarded .ldReg x s (.next (s.setV x (s.getV y)))

/-- 8xy1 (R124). -/
def execOrReg (x y : Reg) (s : State) : Res := guarded .orReg x s (.next (s.setV x (s.getV x ||| s.getV y)))

/-- 8xy2 (R125). -/
def execAndReg (x y : Reg) (s : State) : Res := guarded .andReg x s (.next (s.setV x (s.getV x &&& s.getV y)))

/-- 8xy3 (R126). -/
def execXorReg (x y : Reg) (s : State) : Res := guarded .xorReg x s (.next (s.setV x (s.getV x ^^^ s.getV y)))

/-- 8xy4 (R127). -/
def execAddReg (x y : Reg) (s : State) : Res :=
  guarded .addReg x s (.next (s.setVFlag x (s.getV x + s.getV y) (carryFlag (s.getV x) (s.getV y))))

/-- 8xy5: x is the minuend (R128). -/
def execSub (x y : Reg) (s : State) : Res :=
  guarded .sub x s
    (.next (s.setVFlag x (s.getV x - s.getV y) (subFlag s.params.borrowMode (s.getV x) (s.getV y))))

/-- 8xy6: the source is Vy (R130). -/
def execShr (x y : Reg) (s : State) : Res :=
  guarded .shr x s (.next (s.setVFlag x (s.getV y >>> 1) (lsbFlag (s.getV y))))

/-- 8xy7: y is the minuend (R131). -/
def execSubn (x y : Reg) (s : State) : Res :=
  guarded .subn x s
    (.next (s.setVFlag x (s.getV y - s.getV x) (subFlag s.params.borrowMode (s.getV y) (s.getV x))))

/-- 8xyE: the source is Vy (R132). -/
def execShl (x y : Reg) (s : State) : Res :=
  guarded .shl x s (.next (s.setVFlag x (s.getV y <<< 1) (msbFlag (s.getV y))))

end Sys2Proof.Machine
end

