-- ==== Sys2Proof/Machine/Control.lean ====
section
/-! DEFINITION. Control flow, the stack controller and the skips (spec/43_control.md). PC is the value the STEP sees,
the instruction's address plus 2 inside a CYCLE (R107). No target is checked here: the next fetch does (R173). -/

namespace Sys2Proof.Machine

/-- 0nnn other than 00E0 and 00EE: every such word is UnknownOpcode, never a no-op (R85, R164). -/
def execSys (_nnn : Addr12) (_s : State) : Res := raise .unknownOpcode

/-- 1nnn (R160). -/
def execJp (nnn : Addr12) (s : State) : Res := .next (s.setPc (zextAddr nnn))

/-- Bnnn: a 16-bit sum, not reduced modulo 4096 (R161). -/
def execJpV0 (nnn : Addr12) (s : State) : Res := .next (s.setPc (zextAddr nnn + zextByte (s.getV 0)))

/-- 2nnn (R162). -/
def execCall (nnn : Addr12) (s : State) : Res :=
  if h : s.sp.val < 16 then .next ((s.push s.pc h).setPc (zextAddr nnn)) else raise .stackOverflow

/-- 00EE (R163). -/
def execRet (s : State) : Res :=
  if h : 0 < s.sp.val then .next (s.pop.setPc (s.top h)) else raise .stackUnderflow

/-- 3xkk (R166). -/
def execSeImm (x : Reg) (kk : Byte) (s : State) : Res := guarded .seImm x s (.next (s.skipIf (s.getV x == kk)))

/-- 4xkk (R167). -/
def execSneImm (x : Reg) (kk : Byte) (s : State) : Res := guarded .sneImm x s (.next (s.skipIf (s.getV x != kk)))

/-- 5xy0 (R168). -/
def execSeReg (x y : Reg) (s : State) : Res := guarded .seReg x s (.next (s.skipIf (s.getV x == s.getV y)))

/-- 9xy0 (R169). -/
def execSneReg (x y : Reg) (s : State) : Res := guarded .sneReg x s (.next (s.skipIf (s.getV x != s.getV y)))

/-- Ex9E (R170). -/
def execSkp (x : Reg) (s : State) : Res := guarded .skp x s (.next (s.skipIf (s.pressed (s.getV x))))

/-- ExA1 (R171). -/
def execSknp (x : Reg) (s : State) : Res := guarded .sknp x s (.next (s.skipIf (!s.pressed (s.getV x))))

end Sys2Proof.Machine
end

