-- ==== Sys2Proof/Machine/Index.lean ====
section
/-! DEFINITION. The index register and the memory instructions (spec/44_memory_index.md). No data access changes I
(R190, R195). -/

namespace Sys2Proof.Machine

/-- Annn (R191). -/
def execLdI (nnn : Addr12) (s : State) : Res := .next (s.setI (zextAddr nnn))

/-- Fx1E: modulo 2^16, VF untouched (R192). -/
def execAddI (x : Reg) (s : State) : Res := guarded .addI x s (.next (s.setI (s.i + zextByte (s.getV x))))

/-- The address of the glyph of digit `b`: `(FONT_BASE + 5 * b) mod 2^16` (R193). -/
def State.glyphAddr (s : State) (b : Byte) : Word :=
  BitVec.ofNat 16 (s.params.fontBase.toNat + 5 * b.toNat)

/-- Fx29: a register above 0xF names no glyph and raises Unmodelled, after the operand check (R108, R193). -/
def execLdF (x : Reg) (s : State) : Res :=
  guarded .ldF x s
    (if (s.getV x).toNat > 0xF then raise .unmodelled else .next (s.setI (s.glyphAddr (s.getV x))))

/-- The hundreds, tens and ones of a byte (R194). -/
def bcdDigits (b : Byte) : List Byte :=
  [BitVec.ofNat 8 (b.toNat / 100), BitVec.ofNat 8 (b.toNat / 10 % 10), BitVec.ofNat 8 (b.toNat % 10)]

/-- Fx33 (R194). -/
def execLdB (x : Reg) (s : State) : Res := guarded .ldB x s (.next (s.storeBytes s.i (bcdDigits (s.getV x))))

/-- Fx55 (R196). -/
def execLdMemVx (x : Reg) (s : State) : Res := guarded .ldMemVx x s (.next (s.storeBytes s.i (s.regsTo x)))

/-- Fx65 (R197). -/
def execLdVxMem (x : Reg) (s : State) : Res := guarded .ldVxMem x s (.next (s.loadRegs x))

end Sys2Proof.Machine
end

