-- ==== Sys2Proof/Machine/Sprite.lean ====
section
/-! DEFINITION. The sprite-draw compositing and collision unit, and the display clear (spec/42_sprite.md). -/

namespace Sys2Proof.Machine

/-- The row mask of a sprite byte drawn at column `col`, 0 to 63, by the shift amount `56 - col` (R141). A negative
amount wraps around the right edge (R142). -/
def spriteRow (b : Byte) (col : Nat) : Row :=
  if col ≤ 56 then b.setWidth 64 <<< (56 - col)
  else (b.setWidth 64 >>> (col - 56)) ||| (b.setWidth 64 <<< (120 - col))

/-- Row `k` of the sprite at I, drawn at column `V[x] mod 64` (R140, R141). -/
def State.spriteMask (s : State) (x : Reg) (k : Nat) : Row :=
  spriteRow (s.readByte (effAddr s.i k)) ((s.getV x).toNat % 64)

/-- The framebuffer row that sprite row `k` lands on, `(V[y] + k) mod 32` (R142, C8). -/
def State.targetRow (s : State) (y : Reg) (k : Nat) : Fin 32 :=
  ⟨((s.getV y).toNat + k) % 32, Nat.mod_lt _ (by decide)⟩

/-- The framebuffer and the collision bits after the first `n` rows of a draw. Both read the framebuffer of the state
before the step; a draw meets no row twice (R143, R144, R145). -/
def State.drawRows (s : State) (x y : Reg) : Nat → Vector Row 32 × Row
  | 0 => (s.fb, 0#64)
  | k + 1 =>
    let (fb, coll) := s.drawRows x y k
    let r := s.targetRow y k
    let m := s.spriteMask x k
    (fb.set r.val (s.fb[r.val] ^^^ m), coll ||| (s.fb[r.val] &&& m))

/-- Dxyn (R144): VF is written always, with the collision flag. -/
def execDrw (x y : Reg) (n : Fin 16) (s : State) : Res :=
  guarded .drw x s
    (.next ((s.setFb (s.drawRows x y n.val).1).setV vf (collisionFlag (s.drawRows x y n.val).2)))

/-- 00E0 (R146): VF is unchanged. -/
def execCls (s : State) : Res := .next (s.setFb (Vector.replicate 32 0#64))

end Sys2Proof.Machine
end

