-- ==== Sys2Proof/Machine/TimersKeys.lean ====
section
/-! DEFINITION. Timer, key-wait and random instructions (spec/45_timers_keys.md). -/

namespace Sys2Proof.Machine

/-- Fx07 (R210). -/
def execLdVxDt (x : Reg) (s : State) : Res := guarded .ldVxDt x s (.next (s.setV x s.dt))

/-- Fx15 (R211). -/
def execLdDtVx (x : Reg) (s : State) : Res := guarded .ldDtVx x s (.next (s.setDt (s.getV x)))

/-- Fx18 (R212). -/
def execLdStVx (x : Reg) (s : State) : Res := guarded .ldStVx x s (.next (s.setSt (s.getV x)))

/-- Fx0A: the marker is set and nothing else changes (R213). -/
def execLdVxK (x : Reg) (s : State) : Res := guarded .ldVxK x s (.next (s.setWait (.waiting x)))

/-- Cxkk under the draw `rnd`: `V[x] <- rnd & kk` (R216). -/
def rndInto (x : Reg) (kk rnd : Byte) (s : State) : State := s.setV x (rnd &&& kk)

/-- Cxkk: the draw is the free value number `draws` (R48, R216). -/
def execRnd (x : Reg) (kk : Byte) (s : State) : Res :=
  guarded .rnd x s (.next (rndInto x kk (Config.rnd s.draws) s).spendDraw)

end Sys2Proof.Machine
end

