-- ==== Sys2Proof/Machine/HostPort.lean ====
section
/-! DEFINITION. The transactions of the block other than STEP and CYCLE (spec/10_state.md R40 to R47,
spec/45_timers_keys.md R215, spec/60_exceptions.md R246 to R251) and the boot sequence (spec/70_reset_and_hazards.md
R262). Each acts between two steps (R49). -/

namespace Sys2Proof.Machine

/-- RESOLVE_KEY: while Waiting, the key goes to the waiting register and the wait ends; while Idle, nothing (R215). -/
def State.resolveKey (s : State) (key : Byte) : State :=
  match s.wait with
  | .waiting r => (s.setV r key).setWait .idle
  | .idle => s

/-- A timer one tick later: a timer at 0 stays at 0 (R246). -/
def tickDown (b : Byte) : Byte := if b = 0x00#8 then 0x00#8 else b - 1#8

/-- TIMER_WRITE (R44). -/
def State.timerWrite (s : State) (sel : TimerSel) (b : Byte) : State :=
  match sel with
  | .dt => s.setDt b
  | .st => s.setSt b

/-- TICK: a read of both timers and a write of both decremented values (R44, R246). -/
def State.tick (s : State) : State := (s.timerWrite .dt (tickDown s.dt)).timerWrite .st (tickDown s.st)

/-- KEYPAD_WRITE (R45). -/
def State.keypadWrite (s : State) (mask : Word) : State := s.setKeypad mask

/-- MEM_LOAD (R46). -/
def State.memLoad (s : State) (a : Addr12) (b : Byte) : State := { s with mem := s.mem.write a.toNat b }

/-- FB_READ of one row (R43). -/
def State.fbReadRow (s : State) (r : Fin 32) : Row := s.fb[r.val]

/-- FB_READ of all 32 rows (R43). -/
def State.fbRead (s : State) : Vector Row 32 := s.fb

/-- Pixel (column c, row r) of the framebuffer is bit `63 - c` of row r (R27). -/
def State.pixel (s : State) (r : Fin 32) (c : Fin 64) : Bool := (s.fbReadRow r).getLsbD (63 - c.val)

/-- TIMER_READ (R44). -/
def State.timerRead (s : State) : Byte × Byte := (s.dt, s.st)

/-- STATUS_READ (R47). -/
def State.statusRead (s : State) : KeyWait × Option Err := (s.wait, s.fault)

/-- The MEM_LOADs of an image of bytes from an address up, modulo 4096 (R46, R61). -/
def loadMoves (base : Word) : Nat → List Byte → List HostMove
  | _, [] => []
  | k, b :: bs => .memLoad (BitVec.ofNat 12 (effAddr base k)) b :: loadMoves base (k + 1) bs

/-- The launch image: the ROM from ENTRY_PC upward and FONT_DATA at FONT_BASE (R262). DESIGN CHOICE
(notes/assumptions/20.md): R9, D23 and R262 give no order among these loads. Here the ROM goes first and the font last, each
from its base upward, so where the two overlap the font byte stands. -/
def bootMoves (p : Params) (rom : List Byte) : List HostMove :=
  loadMoves p.entryPc 0 rom ++ loadMoves p.fontBase 0 p.fontData

/-- The boot sequence of R262: RESET, then the loads of the launch image are queued, and CYCLEs follow them. -/
def State.boot (p : Params) (rom : List Byte) : State := (State.resetWith p).setSchedule (bootMoves p rom)

end Sys2Proof.Machine
end

