-- ==== Sys2Proof/Machine/Cycle.lean ====
section
/-! DEFINITION. STEP, CYCLE and the order of transactions (spec/40_step.md R100 to R109, spec/10_state.md R40, R49). -/

namespace Sys2Proof.Machine

/-- STEP(w) (R100): a no-op while a key wait is pending (R103); a word that does not decode is UnknownOpcode (R91);
otherwise the instruction's rule. -/
def stepWord (w : Word) (s : State) : Res :=
  match s.wait with
  | .waiting _ => .next s
  | .idle =>
    match decode w with
    | .error _ => raise .unknownOpcode
    | .ok i => exec i s

/-- CYCLE (R101): no transition under a latched fault or a key wait; a PC that may not be fetched from is latched
(R102); otherwise the word at PC is read, PC moves past it, and one STEP runs, whose error is latched (R109). -/
def cycle (s : State) : Res :=
  match s.fault with
  | some e => .fault (.faultLatched e)
  | none =>
    match s.wait with
    | .waiting x => .fault (.keyWaitHold x)
    | .idle =>
      if fetchable s.pc then catchError s.advancePc (stepWord s.fetchWord s.advancePc)
      else .next (s.latch .pcOutOfRange)

/-- One transaction. -/
def transact : HostMove → State → Res
  | .cycle, s => cycle s
  | .step w, s => stepWord w s
  | .tick, s => .next s.tick
  | .timerWrite sel b, s => .next (s.timerWrite sel b)
  | .keypadWrite mask, s => .next (s.keypadWrite mask)
  | .resolveKey key, s => .next (s.resolveKey key)
  | .memLoad a b, s => .next (s.memLoad a b)
  | .fbRead, s => .next s
  | .timerRead, s => .next s
  | .statusRead, s => .next s

/-- The next transaction of a run: the first the host has queued, or a CYCLE (R40, R251). -/
def advance (s : State) : Res :=
  match s.schedule with
  | [] => cycle s
  | m :: rest => transact m (s.setSchedule rest)

end Sys2Proof.Machine
end

