-- ==== Sys2Proof/Machine/Step.lean ====
section
/-! DEFINITION. The step of the machine, and the placing of a word where it fetches next. -/

namespace Sys2Proof.Machine

/-- One transaction of the machine (Machine/Cycle.lean). -/
def step (s : State) : Host.Outcome State Fault Refusal := advance s

/-- The state whose very next step fetches and runs the word given in the opcode table's numbering. -/
def State.withFetchWord (s : State) (nbits w : Nat) : State := s.placeWord (tableWord nbits w)

end Sys2Proof.Machine
end

