-- ==== Sys2Proof/Safety.lean ====
section
/-! DEFINITION. The terms in which claims about CORE are made: what an instruction may write, which error it raises,
what a run must keep, and what the host owes a run (spec/10_state.md section 3, spec/40_step.md R106 and R108,
spec/60_exceptions.md R251). Each is written from the spec's own summaries, not from the meanings. -/

namespace Sys2Proof.Machine

/-! ## Frames -/

/-- What a transition may write. A field left out of a claim's list is unchanged. -/
structure Writes where
  regs : List Reg := []
  mem : List Nat := []
  index : Bool := false
  pc : Bool := false
  stack : Bool := false
  fb : Bool := false
  dt : Bool := false
  st : Bool := false
  keypad : Bool := false
  wait : Bool := false
  draws : Bool := false
  deriving DecidableEq, Repr

/-- Every register but those listed, every byte of memory but those at the addresses listed, and every other element
that is not marked reads after as it read before. The fault latch, the parameters and the host's queue always do. -/
def Unchanged (w : Writes) (s t : State) : Prop :=
  (∀ r, r ∉ w.regs → t.getV r = s.getV r)
  ∧ (∀ a, a % 4096 ∉ w.mem → t.readByte a = s.readByte a)
  ∧ (w.index = false → t.i = s.i)
  ∧ (w.pc = false → t.pc = s.pc)
  ∧ (w.stack = false → t.sp = s.sp ∧ t.stack = s.stack)
  ∧ (w.fb = false → t.fb = s.fb)
  ∧ (w.dt = false → t.dt = s.dt)
  ∧ (w.st = false → t.st = s.st)
  ∧ (w.keypad = false → t.keypad = s.keypad)
  ∧ (w.wait = false → t.wait = s.wait)
  ∧ (w.draws = false → t.draws = s.draws)
  ∧ t.fault = s.fault ∧ t.params = s.params ∧ t.schedule = s.schedule

/-- The addresses of the first `n` bytes of an access at I (R66, R190). -/
def bytesAtI (s : State) (n : Nat) : List Nat := (List.range n).map (effAddr s.i)

/-- What each instruction may write (spec/10_state.md section 3, spec/20_memory.md R66, spec/41_alu.md R134). -/
def writes : Instr → State → Writes
  | .sys _, _ => {}
  | .cls, _ => { fb := true }
  | .ret, _ => { stack := true, pc := true }
  | .jp _, _ => { pc := true }
  | .call _, _ => { stack := true, pc := true }
  | .seImm _ _, _ => { pc := true }
  | .sneImm _ _, _ => { pc := true }
  | .seReg _ _, _ => { pc := true }
  | .ldImm x _, _ => { regs := [x] }
  | .addImm x _, _ => { regs := [x] }
  | .ldReg x _, _ => { regs := [x] }
  | .orReg x _, _ => { regs := [x] }
  | .andReg x _, _ => { regs := [x] }
  | .xorReg x _, _ => { regs := [x] }
  | .addReg x _, _ => { regs := [x, vf] }
  | .sub x _, _ => { regs := [x, vf] }
  | .shr x _, _ => { regs := [x, vf] }
  | .subn x _, _ => { regs := [x, vf] }
  | .shl x _, _ => { regs := [x, vf] }
  | .sneReg _ _, _ => { pc := true }
  | .ldI _, _ => { index := true }
  | .jpV0 _, _ => { pc := true }
  | .rnd x _, _ => { regs := [x], draws := true }
  | .drw _ _ _, _ => { regs := [vf], fb := true }
  | .skp _, _ => { pc := true }
  | .sknp _, _ => { pc := true }
  | .ldVxDt x, _ => { regs := [x] }
  | .ldVxK _, _ => { wait := true }
  | .ldDtVx _, _ => { dt := true }
  | .ldStVx _, _ => { st := true }
  | .addI _, _ => { index := true }
  | .ldF _, _ => { index := true }
  | .ldB _, s => { mem := bytesAtI s 3 }
  | .ldMemVx x, s => { mem := bytesAtI s (x.val + 1) }
  | .ldVxMem x, _ => { regs := (List.finRange 16).filter (fun r => r ≤ x) }

/-! ## Errors -/

/-- The error an instruction raises, in the order of R108: the operand check, then the stack bound, then the font
range. `none`: it completes (R232). -/
def errorOf (i : Instr) (s : State) : Option Err :=
  match xOperand i with
  | some (op, x) =>
    if x = vf ∧ s.params.guards op = true then some .invalidOperand
    else match i with
      | .ldF x => if (s.getV x).toNat > 15 then some .unmodelled else none
      | _ => none
  | none =>
    match i with
    | .sys _ => some .unknownOpcode
    | .call _ => if s.sp.val = 16 then some .stackOverflow else none
    | .ret => if s.sp.val = 0 then some .stackUnderflow else none
    | _ => none

/-- The outcome with its next state changed by `f`. -/
def mapNext (f : State → State) : Res → Res
  | .next t => .next (f t)
  | .fault e => .fault e
  | .refused r => .refused r

/-- `k` steps, stopping at the first that has no next state. -/
def stepsFrom : Nat → State → Res
  | 0, s => .next s
  | k + 1, s =>
    match step s with
    | .next t => stepsFrom k t
    | .fault f => .fault f
    | .refused r => .refused r

/-- The next CYCLE runs: nothing queued before it, nothing latched, no wait pending. -/
def State.ready (s : State) : Bool := s.schedule.isEmpty && (s.fault == none) && (s.wait == .idle)

/-- What every instruction rule with an `x` operand says before its effect (R111): the mask and match of its row, whether
VF_GUARDED names it by default, and the operand check, which a guarded form with x = 0xF fails (R122). -/
def RuleHead (i : Instr) (op : XOp) (x : Reg) (mask value : Word) (byDefault : Bool) (s : State) : Prop :=
  encode i &&& mask = value
  ∧ Params.default.guards op = byDefault
  ∧ (s.blocked op x = true → exec i s = .fault (.raised .invalidOperand))

/-! ## Fetched bytes -/

/-- Every later fetch of address `a` reads `b`, as either half of the word, whatever else has changed since `t` but memory
(R74). Where no fetch is made at all (R65) nothing is said. -/
def FetchReads (t : State) (a : Nat) (b : Byte) : Prop :=
  ∀ u : State, u.mem = t.mem → fetchable u.pc = true →
    (u.pc.toNat = a → hiByte u.fetchWord = b) ∧ (u.pc.toNat + 1 = a → loByte u.fetchWord = b)

/-! ## Sprites -/

/-- Pixel (row r, column c) of the sprite of a draw, where the draw places it: sprite row k lands on row
`(V[y] + k) mod 32`, pixel j of it, from the left, on column `(V[x] + j) mod 64` (R140 to R142). -/
def State.spritePixel (s : State) (x y : Reg) (n : Fin 16) (r : Fin 32) (c : Fin 64) : Prop :=
  ∃ k j, k < n.val ∧ j < 8 ∧ ((s.getV y).toNat + k) % 32 = r.val ∧ ((s.getV x).toNat + j) % 64 = c.val
    ∧ (s.readByte (effAddr s.i k)).getLsbD (7 - j) = true

/-! ## What a run keeps -/

/-- Memory is in its canonical form. -/
def MemoryCanonical (s : State) : Prop := s.mem.wf = true

/-- The transaction neither writes code from outside nor issues a bare STEP. -/
def HostMove.quiet : HostMove → Bool
  | .cycle => true
  | .step _ => false
  | .tick => true
  | .timerWrite _ _ => true
  | .keypadWrite _ => true
  | .resolveKey _ => true
  | .memLoad _ _ => false
  | .fbRead => true
  | .timerRead => true
  | .statusRead => true

/-- The host's queue holds quiet transactions only. -/
def State.quiet (s : State) : Bool := s.schedule.all HostMove.quiet

/-- The latch tells where and why the run stopped (R233): PcOutOfRange with PC as it was; any other error with the
failing instruction at PC - 2, where a STEP of the word in memory raises that same error. -/
def LatchTellsFailure (s : State) : Prop :=
  match s.fault with
  | none => True
  | some .pcOutOfRange => fetchable s.pc = false
  | some e =>
    s.wait = .idle ∧ fetchable (s.pc - 2#16) = true
      ∧ stepWord (s.wordAt (s.pc - 2#16)) s = .fault (.raised e)

/-! ## What the host owes a run -/

/-- The transaction executes an instruction. -/
def HostMove.executes : HostMove → Bool
  | .cycle => true
  | .step _ => true
  | .tick => false
  | .timerWrite _ _ => false
  | .keypadWrite _ => false
  | .resolveKey _ => false
  | .memLoad _ _ => false
  | .fbRead => false
  | .timerRead => false
  | .statusRead => false

/-- MEM_LOAD comes before the first STEP only (R46, R251): a claim that needs the duty takes it as a premise. -/
def loadsComeFirst : List HostMove → Bool
  | [] => true
  | m :: rest =>
    if m.executes then rest.all (fun q => match q with | .memLoad _ _ => false | _ => true) else loadsComeFirst rest

end Sys2Proof.Machine
end

