-- ==== Sys2Proof/Certificates/Slice0/Obligations.lean ====
section
/-! DEFINITION. The statements about CORE that the provers settle. Each docstring names the rules of spec/ it follows.
`MemoryCanonical s` is the invariant that every step keeps (EveryStepKeepsMemoryCanonical): a store of 0x00 is read
back only in a memory that lists no address twice. `RuleHead` (Safety.lean) states the encoding, the default guard and
the operand check of an instruction rule. A hypothesis `s.blocked op x = false` says that the operand check of
VF_GUARDED lets the instruction run: by default it says nothing outside the nine 8xy_ opcodes, and `x ≠ VF` for those
(R122). -/

open Sys2Proof Sys2Proof.Machine

/-! ## Encoding and decode -/

/-- Decode of encode is the instruction, for every well-formed instruction and every operand value (R81, R82, R94).
That a SYS word decodes to its row's constructor is the model's choice (notes/assumptions/6.md, DEDUCED): R84 and R85
make it UnknownOpcode at decode, which is `decodesTo`. -/
def Obligations.DecodeOfEncodeIsTheInstruction : Prop :=
  ∀ i : Instr, i.wellFormed = true → decode (encode i) = .ok i

/-- A word that decodes is the encoding of what it decodes to: no bit of it is ignored (R89). That a SYS word decodes
to its row's constructor is the model's choice (notes/assumptions/6.md, DEDUCED): R84 and R85 make it UnknownOpcode at
decode, which is `decodesTo`. -/
def Obligations.EncodeOfDecodeIsTheWord : Prop :=
  ∀ (w : Word) (i : Instr), decode w = .ok i → i.wellFormed = true ∧ encode i = w

/-- R84's decode agrees with the opcode table R94: a word of an executing row decodes to that row's instruction, a
word of no row is UnknownOpcode, and no word has two rows. -/
def Obligations.DecodeFollowsTheOpcodeTable : Prop :=
  ∀ w : Word,
    (∀ i, decodesTo w = .ok i → i.row ∈ executingRows ∧ i.row.accepts w = true)
    ∧ (decodesTo w = .error .unknownOpcode ↔ ∀ r ∈ executingRows, r.accepts w = false)
    ∧ (∀ r₁ ∈ executingRows, ∀ r₂ ∈ executingRows, r₁.accepts w = true → r₂.accepts w = true → r₁ = r₂)

/-- Words written out from the encodings of R94, one or more of every class (spec/95_test_vectors.md 2.1). -/
def Obligations.WrittenOutWordsDecode : Prop :=
  decode 0x00E0#16 = .ok .cls ∧ decode 0x00EE#16 = .ok .ret ∧ decode 0x1234#16 = .ok (.jp 0x234#12)
  ∧ decode 0x8F14#16 = .ok (.addReg 15 1) ∧ decode 0xD125#16 = .ok (.drw 1 2 5)
  ∧ decode 0xE39E#16 = .ok (.skp 3) ∧ decode 0xFF65#16 = .ok (.ldVxMem 15)
  ∧ decodesTo 0x01E0#16 = .error .unknownOpcode ∧ decodesTo 0x5121#16 = .error .unknownOpcode
  ∧ decodesTo 0x8F18#16 = .error .unknownOpcode ∧ decodesTo 0xF130#16 = .error .unknownOpcode

/-- R85, the spec's own choices D4 and D5 (spec/92_eei_decisions.md): in class 0x0 only 0x00E0 and 0x00EE are
instructions. -/
def Obligations.ClassZeroHoldsOnlyClsAndRet : Prop :=
  ∀ w : Word, w.toNat < 0x1000 →
    (w = 0x00E0#16 → decodesTo w = .ok .cls) ∧ (w = 0x00EE#16 → decodesTo w = .ok .ret)
    ∧ (w ≠ 0x00E0#16 → w ≠ 0x00EE#16 → decodesTo w = .error .unknownOpcode)

/-- R164, the spec's own choice D5 (spec/92_eei_decisions.md): a SYS word is UnknownOpcode at decode, and its row's
meaning stops with that outcome in every state. -/
def Obligations.SysIsUnknownOpcode : Prop :=
  ∀ nnn : Addr12, nnn ≠ 0x0E0#12 → nnn ≠ 0x0EE#12 →
    decodesTo (encode (.sys nnn)) = .error .unknownOpcode
    ∧ ∀ s : State, exec (.sys nnn) s = .fault (.raised .unknownOpcode)

/-- R91: a STEP of an illegal word ends with UnknownOpcode, which carries no state, but while a key is waited for it
is a no-op. -/
def Obligations.IllegalWordStepsToUnknownOpcode : Prop :=
  ∀ (w : Word) (s : State), decodesTo w = .error .unknownOpcode →
    (s.wait = .idle → stepWord w s = .fault (.raised .unknownOpcode))
    ∧ (s.wait ≠ .idle → stepWord w s = .next s)

/-! ## Reset and boot -/

/-- R260: every element of the state after RESET, for every choice of the parameters. Memory, framebuffer and V
registers are the source's; the rest are the spec's own choices D22 and D8 (spec/92_eei_decisions.md). -/
def Obligations.ResetLeavesTheStatedValues : Prop :=
  Params.default.entryPc = 0x0200#16
  ∧ ∀ p : Params, ∀ s, s = State.resetWith p →
    (∀ r, s.getV r = 0x00#8) ∧ s.i = 0x0000#16 ∧ s.pc = p.entryPc ∧ s.sp.val = 0
    ∧ (∀ k : Fin 16, s.stack[k.val] = 0x0000#16) ∧ (∀ a, s.readByte a = 0x00#8)
    ∧ (∀ r : Fin 32, s.fbReadRow r = 0#64) ∧ s.timerRead = (0x00#8, 0x00#8) ∧ s.keypad = 0x0000#16
    ∧ s.statusRead = (.idle, none)

/-- R262, the spec's own choice D23, through the model's queue (notes/assumptions/7.md): when the queued loads of a
launch image have run, the font bytes stand at FONT_BASE, the ROM bytes at ENTRY_PC wherever the font does not cover
them, and everything else is as RESET left it. That the font stands where the two overlap is the model's choice
(notes/assumptions/20.md): the spec gives no order among the loads. -/
def Obligations.BootLoadsTheLaunchImage : Prop :=
  ∀ (p : Params) (rom : List Byte), rom.length ≤ 4096 → p.fontData.length ≤ 4096 →
    ∃ t, stepsFrom (bootMoves p rom).length (State.boot p rom) = .next t
      ∧ (∀ k (h : k < p.fontData.length), t.readByte (p.fontBase.toNat + k) = p.fontData[k])
      ∧ (∀ k (h : k < rom.length), (∀ j < p.fontData.length, effAddr p.fontBase j ≠ effAddr p.entryPc k) →
          t.readByte (p.entryPc.toNat + k) = rom[k])
      ∧ Unchanged { mem := (List.range rom.length).map (effAddr p.entryPc)
                            ++ (List.range p.fontData.length).map (effAddr p.fontBase) } (State.resetWith p) t

/-! ## STEP, CYCLE and the fault latch -/

/-- R101, R104, the spec's own choices D2 and D8 (spec/92_eei_decisions.md): when the word at PC decodes, the step is
that instruction at the state with PC moved past it, and an error of it is latched in that state. -/
def Obligations.StepRunsTheDecodedInstruction : Prop :=
  ∀ (s : State) (i : Instr), s.schedule = [] → s.fault = none → s.wait = .idle → fetchable s.pc = true →
    decode s.fetchWord = .ok i →
    (∀ t, exec i s.advancePc = .next t → step s = .next t)
    ∧ (∀ e, exec i s.advancePc = .fault (.raised e) →
        step s = .next { s with pc := s.pc + 2#16, fault := some e })

/-- R63: the word fetched has the byte at PC in its upper half and the byte at PC + 1 in its lower half. -/
def Obligations.FetchIsBigEndian : Prop :=
  ∀ s : State, fetchable s.pc = true →
    hiByte s.fetchWord = s.mem.read s.pc.toNat ∧ loByte s.fetchWord = s.mem.read (s.pc.toNat + 1)

/-- R102, the spec's own choice D3 (spec/92_eei_decisions.md): a CYCLE with PC odd or above 0xFFE changes nothing but
the latch, which takes PcOutOfRange. -/
def Obligations.FetchOutOfRangeLatchesOnly : Prop :=
  ∀ s : State, s.schedule = [] → s.fault = none → s.wait = .idle → (s.pc.toNat % 2 ≠ 0 ∨ s.pc.toNat > 0xFFE) →
    step s = .next { s with fault := some .pcOutOfRange }

/-- R103, the spec's own choices D33 and D9 (spec/92_eei_decisions.md): while a key is waited for, a STEP of any word is
a no-op whose outcome is Ok, number 0 on a result port (R230), and a CYCLE has no next state. -/
def Obligations.PendingKeyWaitStopsExecution : Prop :=
  ∀ (s : State) (x : Reg), s.wait = .waiting x →
    (∀ w, stepWord w s = .next s ∧ resultCode (stepWord w s) = some 0) ∧ (∀ t, cycle s ≠ .next t)

/-- R109, the spec's own choice D8 (spec/92_eei_decisions.md): a failed CYCLE sets the latch; a CYCLE under a set
latch has no transition; no transaction clears it; RESET starts with none; and STEP neither reads nor writes it. -/
def Obligations.FaultLatchRule : Prop :=
  (∀ s : State, s.fault = none → s.wait = .idle → fetchable s.pc = false →
      cycle s = .next { s with fault := some .pcOutOfRange })
  ∧ (∀ (s : State) (e : Err), s.fault = none → s.wait = .idle → fetchable s.pc = true →
      stepWord s.fetchWord s.advancePc = .fault (.raised e) →
      cycle s = .next { s with pc := s.pc + 2#16, fault := some e })
  ∧ (∀ (s t : State), s.fault ≠ none → cycle s ≠ .next t)
  ∧ (∀ (m : HostMove) (s t : State) (e : Err), s.fault = some e → transact m s = .next t → t.fault = some e)
  ∧ (∀ p, (State.resetWith p).fault = none)
  ∧ (∀ (w : Word) (s : State) (f : Option Err),
      stepWord w { s with fault := f } = mapNext (fun t => { t with fault := f }) (stepWord w s))

/-- R106, R108, R232, the spec's own choices D7 and D8 and its derivation from them: an instruction raises exactly the
error the checks list, and completes in every other case. The last clause is its number on a result port (R230, R231, the
spec's own choice D9): 0 where it completes. -/
def Obligations.InstructionRaisesExactlyTheListedErrors : Prop :=
  ∀ (i : Instr) (s : State),
    (∀ e, exec i s = .fault (.raised e) ↔ errorOf i s = some e)
    ∧ (errorOf i s = none → ∃ t, exec i s = .next t)
    ∧ resultCode (exec i s) = some (match errorOf i s with
        | none => 0
        | some .unknownOpcode => 1
        | some .invalidOperand => 2
        | some .stackOverflow => 3
        | some .stackUnderflow => 4
        | some .pcOutOfRange => 5
        | some .unmodelled => 6)

/-- The state summary of spec/10_state.md section 3: a completed instruction writes nothing but what the summary lists
for it (R20 to R32, R66, R111). -/
def Obligations.InstructionWritesOnlyItsDestinations : Prop :=
  ∀ (i : Instr) (s t : State), exec i s = .next t → Unchanged (writes i s) s t

/-! ## Register, immediate and arithmetic/logic instructions -/

/-- R120, the spec's own choice D12 (spec/92_eei_decisions.md): LD Vx, kk. -/
def Obligations.LoadImmediate : Prop :=
  ∀ (x : Reg) (kk : Byte) (s : State),
    RuleHead (.ldImm x kk) .ldImm x 0xF000 0x6000 false s
    ∧ (s.blocked .ldImm x = false →
      ∃ t, exec (.ldImm x kk) s = .next t ∧ t.getV x = kk ∧ Unchanged { regs := [x] } s t)

/-- R121: ADD Vx, kk, modulo 256. That VF is unchanged unless it is the destination is the spec's own choice D13
(spec/92_eei_decisions.md). -/
def Obligations.AddImmediateWritesNoFlag : Prop :=
  ∀ (x : Reg) (kk : Byte) (s : State),
    RuleHead (.addImm x kk) .addImm x 0xF000 0x7000 false s
    ∧ (s.blocked .addImm x = false →
      ∃ t, exec (.addImm x kk) s = .next t ∧ (t.getV x).toNat = ((s.getV x).toNat + kk.toNat) % 256
        ∧ Unchanged { regs := [x] } s t)

/-- The copy and the three bitwise operations, bit by bit, writing no flag (R123 to R126). With x = 0xF, which those
rules refuse, the clauses speak of a VF_GUARDED narrowed under the spec's own choice D6, where that the result into VF
stands is the model's (notes/assumptions/17.md). -/
def Obligations.CopyAndLogicGroup : Prop :=
  ∀ (x y : Reg) (s : State),
    RuleHead (.ldReg x y) .ldReg x 0xF00F 0x8000 true s
    ∧ RuleHead (.orReg x y) .orReg x 0xF00F 0x8001 true s
    ∧ RuleHead (.andReg x y) .andReg x 0xF00F 0x8002 true s
    ∧ RuleHead (.xorReg x y) .xorReg x 0xF00F 0x8003 true s
    ∧ (s.blocked .ldReg x = false →
      ∃ t, exec (.ldReg x y) s = .next t ∧ t.getV x = s.getV y ∧ Unchanged { regs := [x] } s t)
    ∧ (s.blocked .orReg x = false →
      ∃ t, exec (.orReg x y) s = .next t
        ∧ (∀ b < 8, (t.getV x).getLsbD b = ((s.getV x).getLsbD b || (s.getV y).getLsbD b))
        ∧ Unchanged { regs := [x] } s t)
    ∧ (s.blocked .andReg x = false →
      ∃ t, exec (.andReg x y) s = .next t
        ∧ (∀ b < 8, (t.getV x).getLsbD b = ((s.getV x).getLsbD b && (s.getV y).getLsbD b))
        ∧ Unchanged { regs := [x] } s t)
    ∧ (s.blocked .xorReg x = false →
      ∃ t, exec (.xorReg x y) s = .next t
        ∧ (∀ b < 8, (t.getV x).getLsbD b = ((s.getV x).getLsbD b ^^ (s.getV y).getLsbD b))
        ∧ Unchanged { regs := [x] } s t)

/-- R127: the sum modulo 256, and VF = 1 exactly when the sum exceeds 255. VF as the destination of a form that a
narrowed VF_GUARDED lets run is EightXyGroupRule's. -/
def Obligations.AddRegistersWithCarry : Prop :=
  ∀ (x y : Reg) (s : State),
    RuleHead (.addReg x y) .addReg x 0xF00F 0x8004 true s
    ∧ (x ≠ vf →
      ∃ t, exec (.addReg x y) s = .next t
        ∧ (t.getV x).toNat = ((s.getV x).toNat + (s.getV y).toNat) % 256
        ∧ t.getV vf = (if (s.getV x).toNat + (s.getV y).toNat > 255 then 1#8 else 0#8)
        ∧ Unchanged { regs := [x, vf] } s t)

/-- R128, R131: the two differences modulo 256, and under BORROW_MODE = STRICT, the default, VF = 1 exactly when the
true difference is above zero. The other mode is SubtractUnderNoBorrow's, VF as the destination EightXyGroupRule's. -/
def Obligations.SubtractBothWays : Prop :=
  Params.default.borrowMode = .strict
  ∧ ∀ (x y : Reg) (s : State),
    RuleHead (.sub x y) .sub x 0xF00F 0x8005 true s
    ∧ RuleHead (.subn x y) .subn x 0xF00F 0x8007 true s
    ∧ (x ≠ vf → s.params.borrowMode = .strict →
      (∃ t, exec (.sub x y) s = .next t
        ∧ (t.getV x).toNat = ((s.getV x).toNat + 256 - (s.getV y).toNat) % 256
        ∧ t.getV vf = (if ((s.getV x).toNat : Int) - (s.getV y).toNat > 0 then 1#8 else 0#8)
        ∧ Unchanged { regs := [x, vf] } s t)
      ∧ (∃ t, exec (.subn x y) s = .next t
        ∧ (t.getV x).toNat = ((s.getV y).toNat + 256 - (s.getV x).toNat) % 256
        ∧ t.getV vf = (if ((s.getV y).toNat : Int) - (s.getV x).toNat > 0 then 1#8 else 0#8)
        ∧ Unchanged { regs := [x, vf] } s t))

/-- The spec's own choice D10 (spec/92_eei_decisions.md): BORROW_MODE = NO_BORROW sets the subtract flag on a
difference of at least zero, so that the two modes differ exactly when the operands are equal. -/
def Obligations.SubtractUnderNoBorrow : Prop :=
  (∀ a b : Byte, subFlag .strict a b ≠ subFlag .noBorrow a b ↔ a = b)
  ∧ ∀ (x y : Reg) (s : State), x ≠ vf → s.params.borrowMode = .noBorrow →
    (∃ t, exec (.sub x y) s = .next t
      ∧ (t.getV x).toNat = ((s.getV x).toNat + 256 - (s.getV y).toNat) % 256
      ∧ t.getV vf = (if ((s.getV x).toNat : Int) - (s.getV y).toNat ≥ 0 then 1#8 else 0#8)
      ∧ Unchanged { regs := [x, vf] } s t)
    ∧ (∃ t, exec (.subn x y) s = .next t
      ∧ (t.getV x).toNat = ((s.getV y).toNat + 256 - (s.getV x).toNat) % 256
      ∧ t.getV vf = (if ((s.getV y).toNat : Int) - (s.getV x).toNat ≥ 0 then 1#8 else 0#8)
      ∧ Unchanged { regs := [x, vf] } s t)

/-- R130, R132: both shifts take Vy, and VF takes the bit shifted out. VF as the destination of a form that a narrowed
VF_GUARDED lets run is EightXyGroupRule's. -/
def Obligations.ShiftsTakeVy : Prop :=
  ∀ (x y : Reg) (s : State),
    RuleHead (.shr x y) .shr x 0xF00F 0x8006 true s
    ∧ RuleHead (.shl x y) .shl x 0xF00F 0x800E true s
    ∧ (x ≠ vf →
      (∃ t, exec (.shr x y) s = .next t ∧ (t.getV x).toNat = (s.getV y).toNat / 2
        ∧ (t.getV vf).toNat = (s.getV y).toNat % 2 ∧ Unchanged { regs := [x, vf] } s t)
      ∧ (∃ t, exec (.shl x y) s = .next t ∧ (t.getV x).toNat = 2 * (s.getV y).toNat % 256
        ∧ (t.getV vf).toNat = (s.getV y).toNat / 128 ∧ Unchanged { regs := [x, vf] } s t))

/-- The default VF_GUARDED is the nine 8xy_ opcodes; a guarded opcode with x = 0xF raises InvalidOperand whatever the
state and y; y = 0xF is no ground for it (R122). The last clause is the spec's own choice D6
(spec/92_eei_decisions.md; notes/assumptions/17.md): a flag-writing opcode that a narrowed VF_GUARDED lets run with x
= 0xF leaves only its flag. -/
def Obligations.EightXyGroupRule : Prop :=
  (∀ op : XOp, Params.default.guards op = true ↔
    op ∈ [XOp.ldReg, .orReg, .andReg, .xorReg, .addReg, .sub, .shr, .subn, .shl])
  ∧ (∀ (i : Instr) (op : XOp) (s : State), xOperand i = some (op, vf) → s.params.guards op = true →
      exec i s = .fault (.raised .invalidOperand))
  ∧ (∀ (x : Reg) (s : State), x ≠ vf →
      ∀ i ∈ [Instr.ldReg x vf, .orReg x vf, .andReg x vf, .xorReg x vf, .addReg x vf, .sub x vf, .shr x vf,
        .subn x vf, .shl x vf], ∃ t, exec i s = .next t)
  ∧ (∀ (y : Reg) (s : State),
      (s.params.guards .addReg = false →
        exec (.addReg vf y) s = .next (s.setV vf (carryFlag (s.getV vf) (s.getV y))))
      ∧ (s.params.guards .sub = false →
        exec (.sub vf y) s = .next (s.setV vf (subFlag s.params.borrowMode (s.getV vf) (s.getV y))))
      ∧ (s.params.guards .shr = false → exec (.shr vf y) s = .next (s.setV vf (lsbFlag (s.getV y))))
      ∧ (s.params.guards .subn = false →
        exec (.subn vf y) s = .next (s.setV vf (subFlag s.params.borrowMode (s.getV y) (s.getV vf))))
      ∧ (s.params.guards .shl = false → exec (.shl vf y) s = .next (s.setV vf (msbFlag (s.getV y)))))

/-! ## Sprites -/

/-- The equivalence the spec derives at the end of R142: for every column the row mask is the byte at the left edge
rotated right by the column. -/
def Obligations.SpriteRowIsARotation : Prop :=
  ∀ (b : Byte) (col : Nat), col < 64 → spriteRow b col = (b.setWidth 64 <<< 56).rotateRight col

/-- R143, R144, the row algorithm as it stands there: each of the n target rows is XORed with the sprite byte shifted
to its column, every other row is as before, and VF is 1 exactly when some target row meets the shifted byte in a set
bit. -/
def Obligations.DrawXorsRowsAndReducesCollisions : Prop :=
  ∀ (x y : Reg) (n : Fin 16) (s : State),
    RuleHead (.drw x y n) .drw x 0xF000 0xD000 false s
    ∧ (s.blocked .drw x = false → ∀ rowMask : Nat → Row,
      (∀ k, rowMask k =
        let b : Row := (s.mem.read ((s.i.toNat + k) % 4096)).setWidth 64
        let sh : Int := 56 - ((s.getV x).toNat % 64 : Nat)
        if sh ≥ 0 then b <<< sh.toNat else (b >>> (-sh).toNat) ||| (b <<< (64 + sh).toNat)) →
      ∃ t, exec (.drw x y n) s = .next t
        ∧ (∀ r : Fin 32, (∀ k < n.val, ((s.getV y).toNat + k) % 32 = r.val →
              t.fbReadRow r = s.fbReadRow r ^^^ rowMask k)
            ∧ ((∀ k < n.val, ((s.getV y).toNat + k) % 32 ≠ r.val) → t.fbReadRow r = s.fbReadRow r))
        ∧ ((∃ k < n.val, ∃ r : Fin 32, r.val = ((s.getV y).toNat + k) % 32 ∧ s.fbReadRow r &&& rowMask k ≠ 0#64) →
            t.getV vf = 1#8)
        ∧ ((∀ k < n.val, ∀ r : Fin 32, r.val = ((s.getV y).toNat + k) % 32 → s.fbReadRow r &&& rowMask k = 0#64) →
            t.getV vf = 0#8)
        ∧ Unchanged { regs := [vf], fb := true } s t)

/-- The draw pixel by pixel, by the column that the spec derives for each sprite pixel at the end of R142: every pixel
of the framebuffer is XORed with the sprite's pixel there, and VF is 1 exactly when some set pixel is met by a sprite
pixel; nothing else changes. -/
def Obligations.DrawXorsEachPixelAndFlagsCollision : Prop :=
  ∀ (x y : Reg) (n : Fin 16) (s : State),
    s.blocked .drw x = false →
      ∃ t, exec (.drw x y n) s = .next t
        ∧ (∀ r c, t.pixel r c = true ↔ (s.pixel r c = true ↔ ¬ s.spritePixel x y n r c))
        ∧ (t.getV vf = 1#8 ∨ t.getV vf = 0#8)
        ∧ (t.getV vf = 1#8 ↔ ∃ r c, s.pixel r c = true ∧ s.spritePixel x y n r c)
        ∧ Unchanged { regs := [vf], fb := true } s t

/-- spec/95_test_vectors.md S5: drawing the same sprite twice at the same place restores the framebuffer, and the
second draw sets VF exactly when some sprite pixel was unset before both; from an empty framebuffer, exactly when the
sprite has a 1 bit. (R145 (h) says the last without the empty framebuffer: notes/assumptions/15.md.) With VF as a
coordinate the flag of the first draw moves the second, so those forms are not the same place. -/
def Obligations.DrawingTwiceErasesTheSprite : Prop :=
  ∀ (x y : Reg) (n : Fin 16) (s : State), x ≠ vf → y ≠ vf →
    ∃ t u, exec (.drw x y n) s = .next t ∧ exec (.drw x y n) t = .next u
      ∧ u.fb = s.fb
      ∧ (u.getV vf = 1#8 ↔ ∃ r c, s.pixel r c = false ∧ s.spritePixel x y n r c)
      ∧ ((∀ r, s.fbReadRow r = 0#64) →
          (u.getV vf = 1#8 ↔ ∃ k < n.val, s.readByte (effAddr s.i k) ≠ 0#8))

/-- R146, the spec's own choice D11 (spec/92_eei_decisions.md): CLS clears all 32 rows and leaves VF. -/
def Obligations.ClearDisplayClearsEveryRow : Prop :=
  encode .cls = 0x00E0#16
  ∧ ∀ s : State, ∃ t, exec .cls s = .next t ∧ (∀ r, t.fbReadRow r = 0#64) ∧ Unchanged { fb := true } s t

/-! ## Control flow -/

/-- R160: 1nnn writes its target into PC unchecked. -/
def Obligations.JumpSetsPc : Prop :=
  ∀ (nnn : Addr12) (s : State),
    encode (.jp nnn) &&& 0xF000 = 0x1000
    ∧ ∃ t, exec (.jp nnn) s = .next t ∧ t.pc.toNat = nnn.toNat ∧ Unchanged { pc := true } s t

/-- The spec's own choice D15 (spec/92_eei_decisions.md): Bnnn adds V0 to nnn in 16 bits, not reduced modulo 4096. -/
def Obligations.JumpPlusV0SetsPc : Prop :=
  ∀ (nnn : Addr12) (s : State),
    encode (.jpV0 nnn) &&& 0xF000 = 0xB000
    ∧ ∃ t, exec (.jpV0 nnn) s = .next t ∧ t.pc.toNat = nnn.toNat + (s.getV 0).toNat ∧ Unchanged { pc := true } s t

/-- R162: CALL with SP = 16 raises StackOverflow; otherwise it saves PC at stack[SP], leaves the other fifteen
entries, adds one to SP and jumps. -/
def Obligations.CallPushesTheReturnAddress : Prop :=
  ∀ (nnn : Addr12) (s : State),
    encode (.call nnn) &&& 0xF000 = 0x2000
    ∧ (s.sp.val = 16 → exec (.call nnn) s = .fault (.raised .stackOverflow))
    ∧ (s.sp.val ≠ 16 →
      ∃ t, exec (.call nnn) s = .next t ∧ t.sp.val = s.sp.val + 1 ∧ t.pc.toNat = nnn.toNat
        ∧ (∀ k : Fin 16, t.stack[k.val] = if k.val = s.sp.val then s.pc else s.stack[k.val])
        ∧ Unchanged { stack := true, pc := true } s t)

/-- R163: RET with SP = 0 raises StackUnderflow; otherwise it takes one from SP, jumps to the entry there and clears
no entry. -/
def Obligations.ReturnPopsTheReturnAddress : Prop :=
  ∀ s : State,
    encode .ret = 0x00EE#16
    ∧ (s.sp.val = 0 → exec .ret s = .fault (.raised .stackUnderflow))
    ∧ (∀ k : Fin 16, s.sp.val = k.val + 1 →
      ∃ t, exec .ret s = .next t ∧ t.sp.val = k.val ∧ t.pc = s.stack[k.val] ∧ t.stack = s.stack
        ∧ Unchanged { stack := true, pc := true } s t)

/-- R174 and spec/95_test_vectors.md S6: whatever runs in between, nested calls and returns among it, if it leaves SP and
the saved entry as the call left them, the return restores the PC and the SP the call saw. -/
def Obligations.ReturnComesBackBehindTheCall : Prop :=
  ∀ (nnn : Addr12) (s : State) (h : s.sp.val < 16),
    ∃ t, exec (.call nnn) s = .next t
      ∧ ∀ u : State, u.sp = t.sp → u.stack[s.sp.val] = t.stack[s.sp.val] →
          ∃ v, exec .ret u = .next v ∧ v.pc = s.pc ∧ v.sp = s.sp

/-- Part of the skip rule (spec/43_control.md section 2): a skip moves PC by 2 more, modulo 2^16, or writes nothing, does
one or the other in every state, raises no error and writes no flag. When it does which is said by ComparingSkips and
KeySkips. -/
def Obligations.SkipsMovePcByOneWidthOrWriteNothing : Prop :=
  ∀ (x y : Reg) (kk : Byte) (s : State) (op : XOp),
    ∀ i ∈ [Instr.seImm x kk, .sneImm x kk, .seReg x y, .sneReg x y, .skp x, .sknp x],
      xOperand i = some (op, x) → s.blocked op x = false →
        exec i s = .next s ∨ exec i s = .next { s with pc := BitVec.ofNat 16 (s.pc.toNat + 2) }

/-- R165, with the conditions of the spec's own choice D35 (spec/92_eei_decisions.md, R166 to R169): the four
comparing skips move PC by 2 more, modulo 2^16, exactly when their condition holds. -/
def Obligations.ComparingSkips : Prop :=
  ∀ (x y : Reg) (kk : Byte) (s : State),
    RuleHead (.seImm x kk) .seImm x 0xF000 0x3000 false s
    ∧ RuleHead (.sneImm x kk) .sneImm x 0xF000 0x4000 false s
    ∧ RuleHead (.seReg x y) .seReg x 0xF00F 0x5000 false s
    ∧ RuleHead (.sneReg x y) .sneReg x 0xF00F 0x9000 false s
    ∧ (s.blocked .seImm x = false → ∃ t, exec (.seImm x kk) s = .next t
      ∧ t.pc.toNat = (s.pc.toNat + if s.getV x = kk then 2 else 0) % 65536 ∧ Unchanged { pc := true } s t)
    ∧ (s.blocked .sneImm x = false → ∃ t, exec (.sneImm x kk) s = .next t
      ∧ t.pc.toNat = (s.pc.toNat + if s.getV x = kk then 0 else 2) % 65536 ∧ Unchanged { pc := true } s t)
    ∧ (s.blocked .seReg x = false → ∃ t, exec (.seReg x y) s = .next t
      ∧ t.pc.toNat = (s.pc.toNat + if s.getV x = s.getV y then 2 else 0) % 65536 ∧ Unchanged { pc := true } s t)
    ∧ (s.blocked .sneReg x = false → ∃ t, exec (.sneReg x y) s = .next t
      ∧ t.pc.toNat = (s.pc.toNat + if s.getV x = s.getV y then 0 else 2) % 65536 ∧ Unchanged { pc := true } s t)

/-- The spec's own choices D35 and D20 (spec/92_eei_decisions.md, R170 to R172): the key skips test bit V[x] of the
key mask, and a register of 16 or more is no pressed key. -/
def Obligations.KeySkips : Prop :=
  ∀ (x : Reg) (s : State),
    RuleHead (.skp x) .skp x 0xF0FF 0xE09E false s
    ∧ RuleHead (.sknp x) .sknp x 0xF0FF 0xE0A1 false s
    ∧ (s.blocked .skp x = false → ∃ t, exec (.skp x) s = .next t
      ∧ (∀ k : Fin 16, (s.getV x).toNat = k.val → s.keypad.getLsbD k.val = true →
          t.pc.toNat = (s.pc.toNat + 2) % 65536)
      ∧ (∀ k : Fin 16, (s.getV x).toNat = k.val → s.keypad.getLsbD k.val = false → t.pc = s.pc)
      ∧ ((s.getV x).toNat ≥ 16 → t.pc = s.pc) ∧ Unchanged { pc := true } s t)
    ∧ (s.blocked .sknp x = false → ∃ t, exec (.sknp x) s = .next t
      ∧ (∀ k : Fin 16, (s.getV x).toNat = k.val → s.keypad.getLsbD k.val = true → t.pc = s.pc)
      ∧ (∀ k : Fin 16, (s.getV x).toNat = k.val → s.keypad.getLsbD k.val = false →
          t.pc.toNat = (s.pc.toNat + 2) % 65536)
      ∧ ((s.getV x).toNat ≥ 16 → t.pc.toNat = (s.pc.toNat + 2) % 65536) ∧ Unchanged { pc := true } s t)

/-! ## The index register and memory -/

/-- The spec's own choices D14, D18 and D19 (spec/92_eei_decisions.md, R191 to R193): the three writes of I, and the
register above 0xF that names no glyph. -/
def Obligations.IndexRegisterWrites : Prop :=
  ∀ (nnn : Addr12) (x : Reg) (s : State),
    encode (.ldI nnn) &&& 0xF000 = 0xA000
    ∧ RuleHead (.addI x) .addI x 0xF0FF 0xF01E false s
    ∧ RuleHead (.ldF x) .ldF x 0xF0FF 0xF029 false s
    ∧ (∃ t, exec (.ldI nnn) s = .next t ∧ t.i.toNat = nnn.toNat ∧ Unchanged { index := true } s t)
    ∧ (s.blocked .addI x = false → ∃ t, exec (.addI x) s = .next t
        ∧ t.i.toNat = (s.i.toNat + (s.getV x).toNat) % 65536 ∧ Unchanged { index := true } s t)
    ∧ (s.blocked .ldF x = false → (s.getV x).toNat ≤ 15 → ∃ t, exec (.ldF x) s = .next t
        ∧ t.i.toNat = (s.params.fontBase.toNat + 5 * (s.getV x).toNat) % 65536 ∧ Unchanged { index := true } s t)
    ∧ (s.blocked .ldF x = false → (s.getV x).toNat > 15 → exec (.ldF x) s = .fault (.raised .unmodelled))

/-- R194: the three decimal digits of Vx, hundreds first, at I, I + 1 and I + 2 modulo 4096; no other byte changes. -/
def Obligations.BcdStoresThreeDigits : Prop :=
  ∀ (x : Reg) (s : State),
    RuleHead (.ldB x) .ldB x 0xF0FF 0xF033 false s
    ∧ (MemoryCanonical s → s.blocked .ldB x = false →
      ∃ t, exec (.ldB x) s = .next t
        ∧ (t.readByte (effAddr s.i 0)).toNat = (s.getV x).toNat / 100
        ∧ (t.readByte (effAddr s.i 1)).toNat = (s.getV x).toNat / 10 % 10
        ∧ (t.readByte (effAddr s.i 2)).toNat = (s.getV x).toNat % 10
        ∧ Unchanged { mem := [effAddr s.i 0, effAddr s.i 1, effAddr s.i 2] } s t)

/-- R195, R196: V0..Vx stored at I modulo 4096, no other byte and not I changed. -/
def Obligations.StoreRegistersFromI : Prop :=
  ∀ (x : Reg) (s : State),
    RuleHead (.ldMemVx x) .ldMemVx x 0xF0FF 0xF055 false s
    ∧ (MemoryCanonical s → s.blocked .ldMemVx x = false →
      ∃ t, exec (.ldMemVx x) s = .next t
        ∧ (∀ k : Reg, k ≤ x → t.readByte (effAddr s.i k.val) = s.getV k)
        ∧ Unchanged { mem := (List.range (x.val + 1)).map (effAddr s.i) } s t)

/-- R195, R197: V0..Vx loaded from I modulo 4096, no other register and not I changed. -/
def Obligations.LoadRegistersFromI : Prop :=
  ∀ (x : Reg) (s : State),
    RuleHead (.ldVxMem x) .ldVxMem x 0xF0FF 0xF065 false s
    ∧ (s.blocked .ldVxMem x = false →
      ∃ t, exec (.ldVxMem x) s = .next t
        ∧ (∀ k : Reg, k ≤ x → t.getV k = s.readByte (effAddr s.i k.val))
        ∧ Unchanged { regs := (List.finRange 16).filter (fun r => r ≤ x) } s t)

/-- spec/95_test_vectors.md S9 and R195 to R197: registers stored with Fx55 come back with Fx65 whatever the registers
hold in between, I unchanged. -/
def Obligations.StoreThenLoadRestoresRegisters : Prop :=
  ∀ (x : Reg) (s : State), MemoryCanonical s → s.blocked .ldMemVx x = false → s.blocked .ldVxMem x = false →
    ∃ t, exec (.ldMemVx x) s = .next t
      ∧ ∀ u : State, u.mem = t.mem → u.i = t.i → u.params = t.params →
          ∃ v, exec (.ldVxMem x) u = .next v ∧ (∀ k : Reg, k ≤ x → v.getV k = s.getV k) ∧ v.i = s.i

/-- R74, R271, the spec's own choice D26 (spec/92_eei_decisions.md): a byte stored by Fx33, Fx55 or MEM_LOAD is what every
later fetch of its address reads. MEM_LOAD after the first STEP is the model's choice (notes/assumptions/13.md). -/
def Obligations.StoredBytesAreFetched : Prop :=
  ∀ s : State, MemoryCanonical s →
    (∀ x : Reg, s.blocked .ldMemVx x = false →
      ∃ t, exec (.ldMemVx x) s = .next t ∧ ∀ k : Reg, k ≤ x → FetchReads t (effAddr s.i k.val) (s.getV k))
    ∧ (∀ x : Reg, s.blocked .ldB x = false →
      ∃ t, exec (.ldB x) s = .next t
        ∧ FetchReads t (effAddr s.i 0) (BitVec.ofNat 8 ((s.getV x).toNat / 100))
        ∧ FetchReads t (effAddr s.i 1) (BitVec.ofNat 8 ((s.getV x).toNat / 10 % 10))
        ∧ FetchReads t (effAddr s.i 2) (BitVec.ofNat 8 ((s.getV x).toNat % 10)))
    ∧ (∀ (a : Addr12) (b : Byte), ∃ t, transact (.memLoad a b) s = .next t ∧ FetchReads t a.toNat b)

/-! ## Timers, key wait, random -/

/-- The spec's own choice D17 (spec/92_eei_decisions.md, R210 to R212): the timer instructions. -/
def Obligations.TimerInstructions : Prop :=
  ∀ (x : Reg) (s : State),
    RuleHead (.ldVxDt x) .ldVxDt x 0xF0FF 0xF007 false s
    ∧ RuleHead (.ldDtVx x) .ldDtVx x 0xF0FF 0xF015 false s
    ∧ RuleHead (.ldStVx x) .ldStVx x 0xF0FF 0xF018 false s
    ∧ (s.blocked .ldVxDt x = false →
      ∃ t, exec (.ldVxDt x) s = .next t ∧ t.getV x = s.timerRead.1 ∧ Unchanged { regs := [x] } s t)
    ∧ (s.blocked .ldDtVx x = false →
      ∃ t, exec (.ldDtVx x) s = .next t ∧ t.timerRead = (s.getV x, s.timerRead.2) ∧ Unchanged { dt := true } s t)
    ∧ (s.blocked .ldStVx x = false →
      ∃ t, exec (.ldStVx x) s = .next t ∧ t.timerRead = (s.timerRead.1, s.getV x) ∧ Unchanged { st := true } s t)

/-- R213: Fx0A sets the marker and performs no further change. -/
def Obligations.KeyWaitInstructionOnlySetsTheMarker : Prop :=
  ∀ (x : Reg) (s : State),
    RuleHead (.ldVxK x) .ldVxK x 0xF0FF 0xF00A false s
    ∧ (s.blocked .ldVxK x = false →
      ∃ t, exec (.ldVxK x) s = .next t ∧ t.wait = .waiting x ∧ Unchanged { wait := true } s t)

/-- The spec's own choice D16 (spec/92_eei_decisions.md, R216, R48): Cxkk keeps only bits of kk, and takes them from a
draw that nothing constrains. The statement holds for every value of the counter `draws` and of the opaque
`Config.rnd`. -/
def Obligations.RandomIsTheDrawMaskedByKk : Prop :=
  ∀ (x : Reg) (kk : Byte) (s : State),
    RuleHead (.rnd x kk) .rnd x 0xF000 0xC000 false s
    ∧ (s.blocked .rnd x = false →
      ∃ t, exec (.rnd x kk) s = .next t
        ∧ (∀ b < 8, (t.getV x).getLsbD b = ((Config.rnd s.draws).getLsbD b && kk.getLsbD b))
        ∧ t.draws = s.draws + 1 ∧ Unchanged { regs := [x], draws := true } s t)

/-- R48, the spec's own choice D16: only Cxkk reads the draw. -/
def Obligations.OnlyRandomReadsTheDraw : Prop :=
  ∀ (i : Instr) (s : State) (d : Nat), (∀ x kk, i ≠ .rnd x kk) →
    exec i { s with draws := d } = mapNext (fun t => { t with draws := d }) (exec i s)

/-! ## The host's transactions -/

/-- R215, with the spec's own choice D21 (spec/92_eei_decisions.md): RESOLVE_KEY while Waiting writes the key, all 8
bits, and ends the wait; while Idle it changes nothing. -/
def Obligations.ResolveKeyEndsTheWait : Prop :=
  ∀ (s : State) (key : Byte),
    (∀ r, s.wait = .waiting r →
      ∃ t, transact (.resolveKey key) s = .next t ∧ t.getV r = key ∧ t.wait = .idle
        ∧ Unchanged { regs := [r], wait := true } s t)
    ∧ (s.wait = .idle → transact (.resolveKey key) s = .next s)

/-- R246, the spec's own choice D24 (spec/92_eei_decisions.md): TICK takes one from each timer that is not 0. -/
def Obligations.TickDecrementsNonzeroTimers : Prop :=
  ∀ s : State, ∃ t, transact .tick s = .next t
    ∧ t.dt.toNat = s.dt.toNat - 1 ∧ t.st.toNat = s.st.toNat - 1 ∧ Unchanged { dt := true, st := true } s t

/-- R43 to R47, the spec's own choices D1 and D23 (spec/92_eei_decisions.md): the write ports write their one element,
and the read ports change nothing. That MEM_LOAD completes in every state, after the first STEP too, is the model's
choice (notes/assumptions/13.md): R46 and R251 use it only before. -/
def Obligations.PortsWriteOneElement : Prop :=
  ∀ (s : State) (b : Byte) (mask : Word) (a : Addr12),
    (∃ t, transact (.timerWrite .dt b) s = .next t ∧ t.timerRead = (b, s.timerRead.2) ∧ Unchanged { dt := true } s t)
    ∧ (∃ t, transact (.timerWrite .st b) s = .next t ∧ t.timerRead = (s.timerRead.1, b)
        ∧ Unchanged { st := true } s t)
    ∧ (∃ t, transact (.keypadWrite mask) s = .next t ∧ t.keypad = mask ∧ Unchanged { keypad := true } s t)
    ∧ (∃ t, transact (.memLoad a b) s = .next t ∧ (MemoryCanonical s → t.readByte a.toNat = b)
        ∧ Unchanged { mem := [a.toNat] } s t)
    ∧ transact .fbRead s = .next s ∧ transact .timerRead s = .next s ∧ transact .statusRead s = .next s

/-- The model's order of transactions (notes/assumptions/7.md, R40, R49): the first queued one runs, the rest stay
queued in order, and an empty queue is a CYCLE. -/
def Obligations.QueuedTransactionsRunInOrder : Prop :=
  ∀ (s : State) (m : HostMove) (rest : List HostMove),
    (s.schedule = m :: rest → step s = transact m { s with schedule := rest })
    ∧ (s.schedule = [] → step s = cycle s)
    ∧ (∀ t, s.schedule = m :: rest → step s = .next t → t.schedule = rest)

/-- notes/assumptions/8.md, R101: from every state, the step after placing a word is the CYCLE of that word. -/
def Obligations.PlacedWordIsRunNext : Prop :=
  ∀ (s : State) (w : Word), MemoryCanonical s → ∀ p, p = s.withFetchWord 16 w.toNat →
    p.fetchWord = w ∧ step p = catchError p.advancePc (stepWord w p.advancePc)

/-! ## Rules of the whole machine -/

/-- R147: the framebuffer changes only in Dxyn and 00E0. -/
def Obligations.FramebufferChangesOnlyByDrawAndClear : Prop :=
  ∀ (m : HostMove) (s t : State), transact m s = .next t → t.fb ≠ s.fb →
    ∃ w i, (m = .cycle ∧ w = s.fetchWord ∨ m = .step w) ∧ decode w = .ok i
      ∧ (i = .cls ∨ ∃ x y n, i = .drw x y n)

/-- R30: only the input source's port sets the key mask. -/
def Obligations.KeypadIsSetOnlyByItsPort : Prop :=
  ∀ (m : HostMove) (s t : State), transact m s = .next t → t.keypad ≠ s.keypad → m = .keypadWrite t.keypad

/-- R214: Idle becomes Waiting(x) only by executing Fx0A, Waiting becomes Idle only by RESOLVE_KEY, and no transaction
changes one Waiting into another. While Waiting, every STEP is a no-op, no CYCLE has a transition, and ticks, keypad
writes and the two reads go on. -/
def Obligations.WaitStateMachine : Prop :=
  (∀ (m : HostMove) (s t : State), transact m s = .next t →
    (∀ x, s.wait = .idle → t.wait = .waiting x →
      ∃ w, (m = .cycle ∧ w = s.fetchWord ∨ m = .step w) ∧ decode w = .ok (.ldVxK x))
    ∧ (∀ r, s.wait = .waiting r → t.wait = .idle → ∃ key, m = .resolveKey key)
    ∧ (∀ r x, s.wait = .waiting r → t.wait = .waiting x → x = r))
  ∧ ∀ (s : State) (r : Reg), s.wait = .waiting r →
    (∀ w, stepWord w s = .next s) ∧ (∀ t, cycle s ≠ .next t)
    ∧ (∀ m, m ∈ [HostMove.tick, .fbRead, .statusRead] ∨ (∃ mask, m = .keypadWrite mask) →
        ∃ t, transact m s = .next t ∧ t.wait = .waiting r)

/-- R28, R29: a timer changes only by its instruction, by the tick or by the driver's write. -/
def Obligations.TimersChangeOnlyByTheirWriters : Prop :=
  ∀ (m : HostMove) (s t : State), transact m s = .next t →
    (t.dt ≠ s.dt → m = .tick ∨ m = .timerWrite .dt t.dt
      ∨ ∃ w x, (m = .cycle ∧ w = s.fetchWord ∨ m = .step w) ∧ decode w = .ok (.ldDtVx x))
    ∧ (t.st ≠ s.st → m = .tick ∨ m = .timerWrite .st t.st
      ∨ ∃ w x, (m = .cycle ∧ w = s.fetchWord ∨ m = .step w) ∧ decode w = .ok (.ldStVx x))

/-- notes/assumptions/1.md: no step writes the parameters of R9. -/
def Obligations.ParametersNeverChange : Prop :=
  ∀ s t : State, step s = .next t → t.params = s.params

/-! ## Invariants -/

/-- Both invariants below hold at reset: memory is in its canonical form, and the latch is silent with nothing queued.
-/
def Obligations.ResetMeetsTheInvariants : Prop :=
  ∀ p, MemoryCanonical (State.resetWith p) ∧ LatchTellsFailure (State.resetWith p) ∧ (State.resetWith p).quiet = true

/-- Every step keeps memory in its canonical form: addresses below 4096 (R61), strictly rising, no listed zero. -/
def Obligations.EveryStepKeepsMemoryCanonical : Prop :=
  ∀ s t : State, MemoryCanonical s → step s = .next t → MemoryCanonical t

/-- R233, which the spec derives, under its own choice D8: under a host that neither loads memory nor issues bare
STEPs, in every state that a step reaches the latch tells where and why the run stopped: a PC that may not be fetched
from, or the instruction at PC - 2, whose STEP raises the latched error again. -/
def Obligations.LatchTellsWhereAndWhyTheRunStopped : Prop :=
  ∀ s t : State, LatchTellsFailure s → s.quiet = true → step s = .next t →
    LatchTellsFailure t ∧ t.quiet = true
end

