-- ==== Sys2Proof/Laws/Encoding.lean ====
section
/-! SUPPORT. The bits of an encoded word, field by field, and the fields read back from it. -/

namespace Sys2Proof

/-! ## The bits of each format (R82) -/

theorem getLsbD_encAddr (c : BitVec 4) (a : Addr12) (b : Nat) :
    (encAddr c a).getLsbD b = if b < 12 then a.getLsbD b else c.getLsbD (b - 12) := BitVec.getLsbD_append

theorem getLsbD_encXkk (c : BitVec 4) (x : Reg) (k : Byte) (b : Nat) :
    (encXkk c x k).getLsbD b =
      if b < 12 then (if b < 8 then k.getLsbD b else (nibble x).getLsbD (b - 8)) else c.getLsbD (b - 12) := by
  have h1 : (encXkk c x k).getLsbD b = if b < 12 then (nibble x ++ k).getLsbD b else c.getLsbD (b - 12) :=
    BitVec.getLsbD_append
  rw [h1, BitVec.getLsbD_append]

theorem getLsbD_encXyn (c : BitVec 4) (x y : Reg) (n : Fin 16) (b : Nat) :
    (encXyn c x y n).getLsbD b =
      if b < 12 then
        (if b < 8 then (if b < 4 then (nibble n).getLsbD b else (nibble y).getLsbD (b - 4))
         else (nibble x).getLsbD (b - 8))
      else c.getLsbD (b - 12) := by
  have h1 : (encXyn c x y n).getLsbD b =
      if b < 12 then (nibble x ++ (nibble y ++ nibble n)).getLsbD b else c.getLsbD (b - 12) :=
    BitVec.getLsbD_append
  have h2 : (nibble x ++ (nibble y ++ nibble n)).getLsbD b =
      if b < 8 then (nibble y ++ nibble n).getLsbD b else (nibble x).getLsbD (b - 8) := BitVec.getLsbD_append
  rw [h1, h2, BitVec.getLsbD_append]

@[simp] theorem nibble_toFin (k : Fin 16) : (nibble k).toFin = k := rfl

/-! ## The fields of each format (R81) -/

@[simp] theorem opClass_encAddr (c : BitVec 4) (a : Addr12) : opClass (encAddr c a) = c := by
  refine BitVec.eq_of_getLsbD_eq fun b hb => ?_
  simp [opClass, getLsbD_encAddr, hb]

@[simp] theorem fieldNnn_encAddr (c : BitVec 4) (a : Addr12) : fieldNnn (encAddr c a) = a := by
  refine BitVec.eq_of_getLsbD_eq fun b hb => ?_
  simp [fieldNnn, getLsbD_encAddr, hb]

@[simp] theorem opClass_encXkk (c : BitVec 4) (x : Reg) (k : Byte) : opClass (encXkk c x k) = c := by
  refine BitVec.eq_of_getLsbD_eq fun b hb => ?_
  simp [opClass, getLsbD_encXkk, hb]

@[simp] theorem fieldX_encXkk (c : BitVec 4) (x : Reg) (k : Byte) : fieldX (encXkk c x k) = x := by
  have : (encXkk c x k).extractLsb' 8 4 = nibble x := by
    refine BitVec.eq_of_getLsbD_eq fun b hb => ?_
    simp [getLsbD_encXkk, hb, show 8 + b < 12 by omega]
  rw [fieldX, this, nibble_toFin]

@[simp] theorem fieldKk_encXkk (c : BitVec 4) (x : Reg) (k : Byte) : fieldKk (encXkk c x k) = k := by
  refine BitVec.eq_of_getLsbD_eq fun b hb => ?_
  simp [fieldKk, getLsbD_encXkk, hb, show b < 12 by omega]

@[simp] theorem opClass_encXyn (c : BitVec 4) (x y : Reg) (n : Fin 16) : opClass (encXyn c x y n) = c := by
  refine BitVec.eq_of_getLsbD_eq fun b hb => ?_
  simp [opClass, getLsbD_encXyn, hb]

@[simp] theorem fieldX_encXyn (c : BitVec 4) (x y : Reg) (n : Fin 16) : fieldX (encXyn c x y n) = x := by
  have : (encXyn c x y n).extractLsb' 8 4 = nibble x := by
    refine BitVec.eq_of_getLsbD_eq fun b hb => ?_
    simp [getLsbD_encXyn, hb, show 8 + b < 12 by omega]
  rw [fieldX, this, nibble_toFin]

@[simp] theorem fieldY_encXyn (c : BitVec 4) (x y : Reg) (n : Fin 16) : fieldY (encXyn c x y n) = y := by
  have : (encXyn c x y n).extractLsb' 4 4 = nibble y := by
    refine BitVec.eq_of_getLsbD_eq fun b hb => ?_
    simp [getLsbD_encXyn, hb, show 4 + b < 12 by omega, show 4 + b < 8 by omega]
  rw [fieldY, this, nibble_toFin]

@[simp] theorem fieldN_encXyn (c : BitVec 4) (x y : Reg) (n : Fin 16) : fieldN (encXyn c x y n) = n := by
  have : (encXyn c x y n).extractLsb' 0 4 = nibble n := by
    refine BitVec.eq_of_getLsbD_eq fun b hb => ?_
    simp [getLsbD_encXyn, hb, show b < 12 by omega, show b < 8 by omega]
  rw [fieldN, this, nibble_toFin]

/-! ## Bytes and words (R62) -/

theorem getLsbD_wordOfBytes (hi lo : Byte) (b : Nat) :
    (wordOfBytes hi lo).getLsbD b = if b < 8 then lo.getLsbD b else (decide (b < 16) && hi.getLsbD (b - 8)) := by
  by_cases h : b < 8
  · simp [wordOfBytes, h, show b < 16 by omega]
  · by_cases h' : b < 16
    · simp [wordOfBytes, h, h', BitVec.getLsbD_of_ge lo b (by omega)]
    · simp [wordOfBytes, h, h']

@[simp] theorem hiByte_wordOfBytes (hi lo : Byte) : hiByte (wordOfBytes hi lo) = hi := by
  refine BitVec.eq_of_getLsbD_eq fun b hb => ?_
  rw [hiByte, BitVec.getLsbD_extractLsb', getLsbD_wordOfBytes]
  simp [hb, show 8 + b < 16 by omega]

@[simp] theorem loByte_wordOfBytes (hi lo : Byte) : loByte (wordOfBytes hi lo) = lo := by
  refine BitVec.eq_of_getLsbD_eq fun b hb => ?_
  simp [loByte, getLsbD_wordOfBytes, hb]

@[simp] theorem wordOfBytes_bytes (w : Word) : wordOfBytes (hiByte w) (loByte w) = w := by
  refine BitVec.eq_of_getLsbD_eq fun b hb => ?_
  rw [getLsbD_wordOfBytes]
  by_cases h : b < 8
  · simp [loByte, h]
  · simp [hiByte, h, hb, show b - 8 < 8 by omega, show 8 + (b - 8) = b by omega]

end Sys2Proof
end

