-- ==== Sys2Proof/Laws/State.lean ====
section
/-! SUPPORT. One lemma for each field and each update of the state: a field that the update writes has its value, every
other field is the one before. All are true by unfolding. -/

namespace Sys2Proof.Machine

variable (s : State)

/-! `setV` -/

@[simp] theorem setV_v (r : Reg) (b : Byte) : (s.setV r b).v = s.v.set r.val b := rfl
@[simp] theorem setV_i (r : Reg) (b : Byte) : (s.setV r b).i = s.i := rfl
@[simp] theorem setV_pc (r : Reg) (b : Byte) : (s.setV r b).pc = s.pc := rfl
@[simp] theorem setV_sp (r : Reg) (b : Byte) : (s.setV r b).sp = s.sp := rfl
@[simp] theorem setV_stack (r : Reg) (b : Byte) : (s.setV r b).stack = s.stack := rfl
@[simp] theorem setV_mem (r : Reg) (b : Byte) : (s.setV r b).mem = s.mem := rfl
@[simp] theorem setV_fb (r : Reg) (b : Byte) : (s.setV r b).fb = s.fb := rfl
@[simp] theorem setV_dt (r : Reg) (b : Byte) : (s.setV r b).dt = s.dt := rfl
@[simp] theorem setV_st (r : Reg) (b : Byte) : (s.setV r b).st = s.st := rfl
@[simp] theorem setV_keypad (r : Reg) (b : Byte) : (s.setV r b).keypad = s.keypad := rfl
@[simp] theorem setV_wait (r : Reg) (b : Byte) : (s.setV r b).wait = s.wait := rfl
@[simp] theorem setV_fault (r : Reg) (b : Byte) : (s.setV r b).fault = s.fault := rfl
@[simp] theorem setV_params (r : Reg) (b : Byte) : (s.setV r b).params = s.params := rfl
@[simp] theorem setV_draws (r : Reg) (b : Byte) : (s.setV r b).draws = s.draws := rfl
@[simp] theorem setV_schedule (r : Reg) (b : Byte) : (s.setV r b).schedule = s.schedule := rfl

/-! `setVFlag` -/

@[simp] theorem setVFlag_v (x : Reg) (b c : Byte) : (s.setVFlag x b c).v = (s.v.set x.val b).set 15 c := rfl
@[simp] theorem setVFlag_i (x : Reg) (b c : Byte) : (s.setVFlag x b c).i = s.i := rfl
@[simp] theorem setVFlag_pc (x : Reg) (b c : Byte) : (s.setVFlag x b c).pc = s.pc := rfl
@[simp] theorem setVFlag_sp (x : Reg) (b c : Byte) : (s.setVFlag x b c).sp = s.sp := rfl
@[simp] theorem setVFlag_stack (x : Reg) (b c : Byte) : (s.setVFlag x b c).stack = s.stack := rfl
@[simp] theorem setVFlag_mem (x : Reg) (b c : Byte) : (s.setVFlag x b c).mem = s.mem := rfl
@[simp] theorem setVFlag_fb (x : Reg) (b c : Byte) : (s.setVFlag x b c).fb = s.fb := rfl
@[simp] theorem setVFlag_dt (x : Reg) (b c : Byte) : (s.setVFlag x b c).dt = s.dt := rfl
@[simp] theorem setVFlag_st (x : Reg) (b c : Byte) : (s.setVFlag x b c).st = s.st := rfl
@[simp] theorem setVFlag_keypad (x : Reg) (b c : Byte) : (s.setVFlag x b c).keypad = s.keypad := rfl
@[simp] theorem setVFlag_wait (x : Reg) (b c : Byte) : (s.setVFlag x b c).wait = s.wait := rfl
@[simp] theorem setVFlag_fault (x : Reg) (b c : Byte) : (s.setVFlag x b c).fault = s.fault := rfl
@[simp] theorem setVFlag_params (x : Reg) (b c : Byte) : (s.setVFlag x b c).params = s.params := rfl
@[simp] theorem setVFlag_draws (x : Reg) (b c : Byte) : (s.setVFlag x b c).draws = s.draws := rfl
@[simp] theorem setVFlag_schedule (x : Reg) (b c : Byte) : (s.setVFlag x b c).schedule = s.schedule := rfl

/-! `loadRegs` -/

@[simp] theorem loadRegs_i (x : Reg) : (s.loadRegs x).i = s.i := rfl
@[simp] theorem loadRegs_pc (x : Reg) : (s.loadRegs x).pc = s.pc := rfl
@[simp] theorem loadRegs_sp (x : Reg) : (s.loadRegs x).sp = s.sp := rfl
@[simp] theorem loadRegs_stack (x : Reg) : (s.loadRegs x).stack = s.stack := rfl
@[simp] theorem loadRegs_mem (x : Reg) : (s.loadRegs x).mem = s.mem := rfl
@[simp] theorem loadRegs_fb (x : Reg) : (s.loadRegs x).fb = s.fb := rfl
@[simp] theorem loadRegs_dt (x : Reg) : (s.loadRegs x).dt = s.dt := rfl
@[simp] theorem loadRegs_st (x : Reg) : (s.loadRegs x).st = s.st := rfl
@[simp] theorem loadRegs_keypad (x : Reg) : (s.loadRegs x).keypad = s.keypad := rfl
@[simp] theorem loadRegs_wait (x : Reg) : (s.loadRegs x).wait = s.wait := rfl
@[simp] theorem loadRegs_fault (x : Reg) : (s.loadRegs x).fault = s.fault := rfl
@[simp] theorem loadRegs_params (x : Reg) : (s.loadRegs x).params = s.params := rfl
@[simp] theorem loadRegs_draws (x : Reg) : (s.loadRegs x).draws = s.draws := rfl
@[simp] theorem loadRegs_schedule (x : Reg) : (s.loadRegs x).schedule = s.schedule := rfl

/-! `setI` -/

@[simp] theorem setI_v (w : Word) : (s.setI w).v = s.v := rfl
@[simp] theorem setI_i (w : Word) : (s.setI w).i = w := rfl
@[simp] theorem setI_pc (w : Word) : (s.setI w).pc = s.pc := rfl
@[simp] theorem setI_sp (w : Word) : (s.setI w).sp = s.sp := rfl
@[simp] theorem setI_stack (w : Word) : (s.setI w).stack = s.stack := rfl
@[simp] theorem setI_mem (w : Word) : (s.setI w).mem = s.mem := rfl
@[simp] theorem setI_fb (w : Word) : (s.setI w).fb = s.fb := rfl
@[simp] theorem setI_dt (w : Word) : (s.setI w).dt = s.dt := rfl
@[simp] theorem setI_st (w : Word) : (s.setI w).st = s.st := rfl
@[simp] theorem setI_keypad (w : Word) : (s.setI w).keypad = s.keypad := rfl
@[simp] theorem setI_wait (w : Word) : (s.setI w).wait = s.wait := rfl
@[simp] theorem setI_fault (w : Word) : (s.setI w).fault = s.fault := rfl
@[simp] theorem setI_params (w : Word) : (s.setI w).params = s.params := rfl
@[simp] theorem setI_draws (w : Word) : (s.setI w).draws = s.draws := rfl
@[simp] theorem setI_schedule (w : Word) : (s.setI w).schedule = s.schedule := rfl

/-! `setPc` -/

@[simp] theorem setPc_v (w : Word) : (s.setPc w).v = s.v := rfl
@[simp] theorem setPc_i (w : Word) : (s.setPc w).i = s.i := rfl
@[simp] theorem setPc_pc (w : Word) : (s.setPc w).pc = w := rfl
@[simp] theorem setPc_sp (w : Word) : (s.setPc w).sp = s.sp := rfl
@[simp] theorem setPc_stack (w : Word) : (s.setPc w).stack = s.stack := rfl
@[simp] theorem setPc_mem (w : Word) : (s.setPc w).mem = s.mem := rfl
@[simp] theorem setPc_fb (w : Word) : (s.setPc w).fb = s.fb := rfl
@[simp] theorem setPc_dt (w : Word) : (s.setPc w).dt = s.dt := rfl
@[simp] theorem setPc_st (w : Word) : (s.setPc w).st = s.st := rfl
@[simp] theorem setPc_keypad (w : Word) : (s.setPc w).keypad = s.keypad := rfl
@[simp] theorem setPc_wait (w : Word) : (s.setPc w).wait = s.wait := rfl
@[simp] theorem setPc_fault (w : Word) : (s.setPc w).fault = s.fault := rfl
@[simp] theorem setPc_params (w : Word) : (s.setPc w).params = s.params := rfl
@[simp] theorem setPc_draws (w : Word) : (s.setPc w).draws = s.draws := rfl
@[simp] theorem setPc_schedule (w : Word) : (s.setPc w).schedule = s.schedule := rfl

/-! `advancePc` -/

@[simp] theorem advancePc_v : (s.advancePc).v = s.v := rfl
@[simp] theorem advancePc_i : (s.advancePc).i = s.i := rfl
@[simp] theorem advancePc_pc : (s.advancePc).pc = s.pc + 2#16 := rfl
@[simp] theorem advancePc_sp : (s.advancePc).sp = s.sp := rfl
@[simp] theorem advancePc_stack : (s.advancePc).stack = s.stack := rfl
@[simp] theorem advancePc_mem : (s.advancePc).mem = s.mem := rfl
@[simp] theorem advancePc_fb : (s.advancePc).fb = s.fb := rfl
@[simp] theorem advancePc_dt : (s.advancePc).dt = s.dt := rfl
@[simp] theorem advancePc_st : (s.advancePc).st = s.st := rfl
@[simp] theorem advancePc_keypad : (s.advancePc).keypad = s.keypad := rfl
@[simp] theorem advancePc_wait : (s.advancePc).wait = s.wait := rfl
@[simp] theorem advancePc_fault : (s.advancePc).fault = s.fault := rfl
@[simp] theorem advancePc_params : (s.advancePc).params = s.params := rfl
@[simp] theorem advancePc_draws : (s.advancePc).draws = s.draws := rfl
@[simp] theorem advancePc_schedule : (s.advancePc).schedule = s.schedule := rfl

/-! `setFb` -/

@[simp] theorem setFb_v (f : Vector Row 32) : (s.setFb f).v = s.v := rfl
@[simp] theorem setFb_i (f : Vector Row 32) : (s.setFb f).i = s.i := rfl
@[simp] theorem setFb_pc (f : Vector Row 32) : (s.setFb f).pc = s.pc := rfl
@[simp] theorem setFb_sp (f : Vector Row 32) : (s.setFb f).sp = s.sp := rfl
@[simp] theorem setFb_stack (f : Vector Row 32) : (s.setFb f).stack = s.stack := rfl
@[simp] theorem setFb_mem (f : Vector Row 32) : (s.setFb f).mem = s.mem := rfl
@[simp] theorem setFb_fb (f : Vector Row 32) : (s.setFb f).fb = f := rfl
@[simp] theorem setFb_dt (f : Vector Row 32) : (s.setFb f).dt = s.dt := rfl
@[simp] theorem setFb_st (f : Vector Row 32) : (s.setFb f).st = s.st := rfl
@[simp] theorem setFb_keypad (f : Vector Row 32) : (s.setFb f).keypad = s.keypad := rfl
@[simp] theorem setFb_wait (f : Vector Row 32) : (s.setFb f).wait = s.wait := rfl
@[simp] theorem setFb_fault (f : Vector Row 32) : (s.setFb f).fault = s.fault := rfl
@[simp] theorem setFb_params (f : Vector Row 32) : (s.setFb f).params = s.params := rfl
@[simp] theorem setFb_draws (f : Vector Row 32) : (s.setFb f).draws = s.draws := rfl
@[simp] theorem setFb_schedule (f : Vector Row 32) : (s.setFb f).schedule = s.schedule := rfl

/-! `setDt` -/

@[simp] theorem setDt_v (b : Byte) : (s.setDt b).v = s.v := rfl
@[simp] theorem setDt_i (b : Byte) : (s.setDt b).i = s.i := rfl
@[simp] theorem setDt_pc (b : Byte) : (s.setDt b).pc = s.pc := rfl
@[simp] theorem setDt_sp (b : Byte) : (s.setDt b).sp = s.sp := rfl
@[simp] theorem setDt_stack (b : Byte) : (s.setDt b).stack = s.stack := rfl
@[simp] theorem setDt_mem (b : Byte) : (s.setDt b).mem = s.mem := rfl
@[simp] theorem setDt_fb (b : Byte) : (s.setDt b).fb = s.fb := rfl
@[simp] theorem setDt_dt (b : Byte) : (s.setDt b).dt = b := rfl
@[simp] theorem setDt_st (b : Byte) : (s.setDt b).st = s.st := rfl
@[simp] theorem setDt_keypad (b : Byte) : (s.setDt b).keypad = s.keypad := rfl
@[simp] theorem setDt_wait (b : Byte) : (s.setDt b).wait = s.wait := rfl
@[simp] theorem setDt_fault (b : Byte) : (s.setDt b).fault = s.fault := rfl
@[simp] theorem setDt_params (b : Byte) : (s.setDt b).params = s.params := rfl
@[simp] theorem setDt_draws (b : Byte) : (s.setDt b).draws = s.draws := rfl
@[simp] theorem setDt_schedule (b : Byte) : (s.setDt b).schedule = s.schedule := rfl

/-! `setSt` -/

@[simp] theorem setSt_v (b : Byte) : (s.setSt b).v = s.v := rfl
@[simp] theorem setSt_i (b : Byte) : (s.setSt b).i = s.i := rfl
@[simp] theorem setSt_pc (b : Byte) : (s.setSt b).pc = s.pc := rfl
@[simp] theorem setSt_sp (b : Byte) : (s.setSt b).sp = s.sp := rfl
@[simp] theorem setSt_stack (b : Byte) : (s.setSt b).stack = s.stack := rfl
@[simp] theorem setSt_mem (b : Byte) : (s.setSt b).mem = s.mem := rfl
@[simp] theorem setSt_fb (b : Byte) : (s.setSt b).fb = s.fb := rfl
@[simp] theorem setSt_dt (b : Byte) : (s.setSt b).dt = s.dt := rfl
@[simp] theorem setSt_st (b : Byte) : (s.setSt b).st = b := rfl
@[simp] theorem setSt_keypad (b : Byte) : (s.setSt b).keypad = s.keypad := rfl
@[simp] theorem setSt_wait (b : Byte) : (s.setSt b).wait = s.wait := rfl
@[simp] theorem setSt_fault (b : Byte) : (s.setSt b).fault = s.fault := rfl
@[simp] theorem setSt_params (b : Byte) : (s.setSt b).params = s.params := rfl
@[simp] theorem setSt_draws (b : Byte) : (s.setSt b).draws = s.draws := rfl
@[simp] theorem setSt_schedule (b : Byte) : (s.setSt b).schedule = s.schedule := rfl

/-! `setKeypad` -/

@[simp] theorem setKeypad_v (m : Word) : (s.setKeypad m).v = s.v := rfl
@[simp] theorem setKeypad_i (m : Word) : (s.setKeypad m).i = s.i := rfl
@[simp] theorem setKeypad_pc (m : Word) : (s.setKeypad m).pc = s.pc := rfl
@[simp] theorem setKeypad_sp (m : Word) : (s.setKeypad m).sp = s.sp := rfl
@[simp] theorem setKeypad_stack (m : Word) : (s.setKeypad m).stack = s.stack := rfl
@[simp] theorem setKeypad_mem (m : Word) : (s.setKeypad m).mem = s.mem := rfl
@[simp] theorem setKeypad_fb (m : Word) : (s.setKeypad m).fb = s.fb := rfl
@[simp] theorem setKeypad_dt (m : Word) : (s.setKeypad m).dt = s.dt := rfl
@[simp] theorem setKeypad_st (m : Word) : (s.setKeypad m).st = s.st := rfl
@[simp] theorem setKeypad_keypad (m : Word) : (s.setKeypad m).keypad = m := rfl
@[simp] theorem setKeypad_wait (m : Word) : (s.setKeypad m).wait = s.wait := rfl
@[simp] theorem setKeypad_fault (m : Word) : (s.setKeypad m).fault = s.fault := rfl
@[simp] theorem setKeypad_params (m : Word) : (s.setKeypad m).params = s.params := rfl
@[simp] theorem setKeypad_draws (m : Word) : (s.setKeypad m).draws = s.draws := rfl
@[simp] theorem setKeypad_schedule (m : Word) : (s.setKeypad m).schedule = s.schedule := rfl

/-! `setWait` -/

@[simp] theorem setWait_v (k : KeyWait) : (s.setWait k).v = s.v := rfl
@[simp] theorem setWait_i (k : KeyWait) : (s.setWait k).i = s.i := rfl
@[simp] theorem setWait_pc (k : KeyWait) : (s.setWait k).pc = s.pc := rfl
@[simp] theorem setWait_sp (k : KeyWait) : (s.setWait k).sp = s.sp := rfl
@[simp] theorem setWait_stack (k : KeyWait) : (s.setWait k).stack = s.stack := rfl
@[simp] theorem setWait_mem (k : KeyWait) : (s.setWait k).mem = s.mem := rfl
@[simp] theorem setWait_fb (k : KeyWait) : (s.setWait k).fb = s.fb := rfl
@[simp] theorem setWait_dt (k : KeyWait) : (s.setWait k).dt = s.dt := rfl
@[simp] theorem setWait_st (k : KeyWait) : (s.setWait k).st = s.st := rfl
@[simp] theorem setWait_keypad (k : KeyWait) : (s.setWait k).keypad = s.keypad := rfl
@[simp] theorem setWait_wait (k : KeyWait) : (s.setWait k).wait = k := rfl
@[simp] theorem setWait_fault (k : KeyWait) : (s.setWait k).fault = s.fault := rfl
@[simp] theorem setWait_params (k : KeyWait) : (s.setWait k).params = s.params := rfl
@[simp] theorem setWait_draws (k : KeyWait) : (s.setWait k).draws = s.draws := rfl
@[simp] theorem setWait_schedule (k : KeyWait) : (s.setWait k).schedule = s.schedule := rfl

/-! `setSchedule` -/

@[simp] theorem setSchedule_v (q : List HostMove) : (s.setSchedule q).v = s.v := rfl
@[simp] theorem setSchedule_i (q : List HostMove) : (s.setSchedule q).i = s.i := rfl
@[simp] theorem setSchedule_pc (q : List HostMove) : (s.setSchedule q).pc = s.pc := rfl
@[simp] theorem setSchedule_sp (q : List HostMove) : (s.setSchedule q).sp = s.sp := rfl
@[simp] theorem setSchedule_stack (q : List HostMove) : (s.setSchedule q).stack = s.stack := rfl
@[simp] theorem setSchedule_mem (q : List HostMove) : (s.setSchedule q).mem = s.mem := rfl
@[simp] theorem setSchedule_fb (q : List HostMove) : (s.setSchedule q).fb = s.fb := rfl
@[simp] theorem setSchedule_dt (q : List HostMove) : (s.setSchedule q).dt = s.dt := rfl
@[simp] theorem setSchedule_st (q : List HostMove) : (s.setSchedule q).st = s.st := rfl
@[simp] theorem setSchedule_keypad (q : List HostMove) : (s.setSchedule q).keypad = s.keypad := rfl
@[simp] theorem setSchedule_wait (q : List HostMove) : (s.setSchedule q).wait = s.wait := rfl
@[simp] theorem setSchedule_fault (q : List HostMove) : (s.setSchedule q).fault = s.fault := rfl
@[simp] theorem setSchedule_params (q : List HostMove) : (s.setSchedule q).params = s.params := rfl
@[simp] theorem setSchedule_draws (q : List HostMove) : (s.setSchedule q).draws = s.draws := rfl
@[simp] theorem setSchedule_schedule (q : List HostMove) : (s.setSchedule q).schedule = q := rfl

/-! `spendDraw` -/

@[simp] theorem spendDraw_v : (s.spendDraw).v = s.v := rfl
@[simp] theorem spendDraw_i : (s.spendDraw).i = s.i := rfl
@[simp] theorem spendDraw_pc : (s.spendDraw).pc = s.pc := rfl
@[simp] theorem spendDraw_sp : (s.spendDraw).sp = s.sp := rfl
@[simp] theorem spendDraw_stack : (s.spendDraw).stack = s.stack := rfl
@[simp] theorem spendDraw_mem : (s.spendDraw).mem = s.mem := rfl
@[simp] theorem spendDraw_fb : (s.spendDraw).fb = s.fb := rfl
@[simp] theorem spendDraw_dt : (s.spendDraw).dt = s.dt := rfl
@[simp] theorem spendDraw_st : (s.spendDraw).st = s.st := rfl
@[simp] theorem spendDraw_keypad : (s.spendDraw).keypad = s.keypad := rfl
@[simp] theorem spendDraw_wait : (s.spendDraw).wait = s.wait := rfl
@[simp] theorem spendDraw_fault : (s.spendDraw).fault = s.fault := rfl
@[simp] theorem spendDraw_params : (s.spendDraw).params = s.params := rfl
@[simp] theorem spendDraw_draws : (s.spendDraw).draws = s.draws + 1 := rfl
@[simp] theorem spendDraw_schedule : (s.spendDraw).schedule = s.schedule := rfl

/-! `latch` -/

@[simp] theorem latch_v (e : Err) : (s.latch e).v = s.v := rfl
@[simp] theorem latch_i (e : Err) : (s.latch e).i = s.i := rfl
@[simp] theorem latch_pc (e : Err) : (s.latch e).pc = s.pc := rfl
@[simp] theorem latch_sp (e : Err) : (s.latch e).sp = s.sp := rfl
@[simp] theorem latch_stack (e : Err) : (s.latch e).stack = s.stack := rfl
@[simp] theorem latch_mem (e : Err) : (s.latch e).mem = s.mem := rfl
@[simp] theorem latch_fb (e : Err) : (s.latch e).fb = s.fb := rfl
@[simp] theorem latch_dt (e : Err) : (s.latch e).dt = s.dt := rfl
@[simp] theorem latch_st (e : Err) : (s.latch e).st = s.st := rfl
@[simp] theorem latch_keypad (e : Err) : (s.latch e).keypad = s.keypad := rfl
@[simp] theorem latch_wait (e : Err) : (s.latch e).wait = s.wait := rfl
@[simp] theorem latch_fault (e : Err) : (s.latch e).fault = some e := rfl
@[simp] theorem latch_params (e : Err) : (s.latch e).params = s.params := rfl
@[simp] theorem latch_draws (e : Err) : (s.latch e).draws = s.draws := rfl
@[simp] theorem latch_schedule (e : Err) : (s.latch e).schedule = s.schedule := rfl

/-! `storeBytes` -/

@[simp] theorem storeBytes_v (w : Word) (bs : List Byte) : (s.storeBytes w bs).v = s.v := rfl
@[simp] theorem storeBytes_i (w : Word) (bs : List Byte) : (s.storeBytes w bs).i = s.i := rfl
@[simp] theorem storeBytes_pc (w : Word) (bs : List Byte) : (s.storeBytes w bs).pc = s.pc := rfl
@[simp] theorem storeBytes_sp (w : Word) (bs : List Byte) : (s.storeBytes w bs).sp = s.sp := rfl
@[simp] theorem storeBytes_stack (w : Word) (bs : List Byte) : (s.storeBytes w bs).stack = s.stack := rfl
@[simp] theorem storeBytes_mem (w : Word) (bs : List Byte) : (s.storeBytes w bs).mem = storeFrom w 0 bs s.mem := rfl
@[simp] theorem storeBytes_fb (w : Word) (bs : List Byte) : (s.storeBytes w bs).fb = s.fb := rfl
@[simp] theorem storeBytes_dt (w : Word) (bs : List Byte) : (s.storeBytes w bs).dt = s.dt := rfl
@[simp] theorem storeBytes_st (w : Word) (bs : List Byte) : (s.storeBytes w bs).st = s.st := rfl
@[simp] theorem storeBytes_keypad (w : Word) (bs : List Byte) : (s.storeBytes w bs).keypad = s.keypad := rfl
@[simp] theorem storeBytes_wait (w : Word) (bs : List Byte) : (s.storeBytes w bs).wait = s.wait := rfl
@[simp] theorem storeBytes_fault (w : Word) (bs : List Byte) : (s.storeBytes w bs).fault = s.fault := rfl
@[simp] theorem storeBytes_params (w : Word) (bs : List Byte) : (s.storeBytes w bs).params = s.params := rfl
@[simp] theorem storeBytes_draws (w : Word) (bs : List Byte) : (s.storeBytes w bs).draws = s.draws := rfl
@[simp] theorem storeBytes_schedule (w : Word) (bs : List Byte) : (s.storeBytes w bs).schedule = s.schedule := rfl

/-! `push` -/

@[simp] theorem push_v (w : Word) (h : s.sp.val < 16) : (s.push w h).v = s.v := rfl
@[simp] theorem push_i (w : Word) (h : s.sp.val < 16) : (s.push w h).i = s.i := rfl
@[simp] theorem push_pc (w : Word) (h : s.sp.val < 16) : (s.push w h).pc = s.pc := rfl
@[simp] theorem push_stack (w : Word) (h : s.sp.val < 16) : (s.push w h).stack = s.stack.set s.sp.val w h := rfl
@[simp] theorem push_mem (w : Word) (h : s.sp.val < 16) : (s.push w h).mem = s.mem := rfl
@[simp] theorem push_fb (w : Word) (h : s.sp.val < 16) : (s.push w h).fb = s.fb := rfl
@[simp] theorem push_dt (w : Word) (h : s.sp.val < 16) : (s.push w h).dt = s.dt := rfl
@[simp] theorem push_st (w : Word) (h : s.sp.val < 16) : (s.push w h).st = s.st := rfl
@[simp] theorem push_keypad (w : Word) (h : s.sp.val < 16) : (s.push w h).keypad = s.keypad := rfl
@[simp] theorem push_wait (w : Word) (h : s.sp.val < 16) : (s.push w h).wait = s.wait := rfl
@[simp] theorem push_fault (w : Word) (h : s.sp.val < 16) : (s.push w h).fault = s.fault := rfl
@[simp] theorem push_params (w : Word) (h : s.sp.val < 16) : (s.push w h).params = s.params := rfl
@[simp] theorem push_draws (w : Word) (h : s.sp.val < 16) : (s.push w h).draws = s.draws := rfl
@[simp] theorem push_schedule (w : Word) (h : s.sp.val < 16) : (s.push w h).schedule = s.schedule := rfl

/-! `pop` -/

@[simp] theorem pop_v : (s.pop).v = s.v := rfl
@[simp] theorem pop_i : (s.pop).i = s.i := rfl
@[simp] theorem pop_pc : (s.pop).pc = s.pc := rfl
@[simp] theorem pop_stack : (s.pop).stack = s.stack := rfl
@[simp] theorem pop_mem : (s.pop).mem = s.mem := rfl
@[simp] theorem pop_fb : (s.pop).fb = s.fb := rfl
@[simp] theorem pop_dt : (s.pop).dt = s.dt := rfl
@[simp] theorem pop_st : (s.pop).st = s.st := rfl
@[simp] theorem pop_keypad : (s.pop).keypad = s.keypad := rfl
@[simp] theorem pop_wait : (s.pop).wait = s.wait := rfl
@[simp] theorem pop_fault : (s.pop).fault = s.fault := rfl
@[simp] theorem pop_params : (s.pop).params = s.params := rfl
@[simp] theorem pop_draws : (s.pop).draws = s.draws := rfl
@[simp] theorem pop_schedule : (s.pop).schedule = s.schedule := rfl

/-! `placeWord` -/

@[simp] theorem placeWord_v (w : Word) : (s.placeWord w).v = s.v := rfl
@[simp] theorem placeWord_i (w : Word) : (s.placeWord w).i = s.i := rfl
@[simp] theorem placeWord_pc (w : Word) : (s.placeWord w).pc = if fetchable s.pc then s.pc else Config.defaultEntryPc := rfl
@[simp] theorem placeWord_sp (w : Word) : (s.placeWord w).sp = s.sp := rfl
@[simp] theorem placeWord_stack (w : Word) : (s.placeWord w).stack = s.stack := rfl
@[simp] theorem placeWord_fb (w : Word) : (s.placeWord w).fb = s.fb := rfl
@[simp] theorem placeWord_dt (w : Word) : (s.placeWord w).dt = s.dt := rfl
@[simp] theorem placeWord_st (w : Word) : (s.placeWord w).st = s.st := rfl
@[simp] theorem placeWord_keypad (w : Word) : (s.placeWord w).keypad = s.keypad := rfl
@[simp] theorem placeWord_wait (w : Word) : (s.placeWord w).wait = .idle := rfl
@[simp] theorem placeWord_fault (w : Word) : (s.placeWord w).fault = none := rfl
@[simp] theorem placeWord_params (w : Word) : (s.placeWord w).params = s.params := rfl
@[simp] theorem placeWord_draws (w : Word) : (s.placeWord w).draws = s.draws := rfl
@[simp] theorem placeWord_schedule (w : Word) : (s.placeWord w).schedule = [] := rfl

/-! `memLoad` -/

@[simp] theorem memLoad_v (a : Addr12) (b : Byte) : (s.memLoad a b).v = s.v := rfl
@[simp] theorem memLoad_i (a : Addr12) (b : Byte) : (s.memLoad a b).i = s.i := rfl
@[simp] theorem memLoad_pc (a : Addr12) (b : Byte) : (s.memLoad a b).pc = s.pc := rfl
@[simp] theorem memLoad_sp (a : Addr12) (b : Byte) : (s.memLoad a b).sp = s.sp := rfl
@[simp] theorem memLoad_stack (a : Addr12) (b : Byte) : (s.memLoad a b).stack = s.stack := rfl
@[simp] theorem memLoad_mem (a : Addr12) (b : Byte) : (s.memLoad a b).mem = s.mem.write a.toNat b := rfl
@[simp] theorem memLoad_fb (a : Addr12) (b : Byte) : (s.memLoad a b).fb = s.fb := rfl
@[simp] theorem memLoad_dt (a : Addr12) (b : Byte) : (s.memLoad a b).dt = s.dt := rfl
@[simp] theorem memLoad_st (a : Addr12) (b : Byte) : (s.memLoad a b).st = s.st := rfl
@[simp] theorem memLoad_keypad (a : Addr12) (b : Byte) : (s.memLoad a b).keypad = s.keypad := rfl
@[simp] theorem memLoad_wait (a : Addr12) (b : Byte) : (s.memLoad a b).wait = s.wait := rfl
@[simp] theorem memLoad_fault (a : Addr12) (b : Byte) : (s.memLoad a b).fault = s.fault := rfl
@[simp] theorem memLoad_params (a : Addr12) (b : Byte) : (s.memLoad a b).params = s.params := rfl
@[simp] theorem memLoad_draws (a : Addr12) (b : Byte) : (s.memLoad a b).draws = s.draws := rfl
@[simp] theorem memLoad_schedule (a : Addr12) (b : Byte) : (s.memLoad a b).schedule = s.schedule := rfl

/-! The fields that need more than a name. -/

@[simp] theorem push_sp (w : Word) (h : s.sp.val < 16) : (s.push w h).sp.val = s.sp.val + 1 := rfl
@[simp] theorem pop_sp : s.pop.sp.val = s.sp.val - 1 := rfl

end Sys2Proof.Machine
end

