-- ==== Sys2Proof/Laws/Memory.lean ====
section
/-! SUPPORT. Memory: a read after a write, the canonical form, and the bytes a multi-byte store reaches. -/

namespace Sys2Proof.Machine

/-! ## The canonical form -/

theorem Memory.wfFrom_cons {lo a : Nat} {b : Byte} {m : Memory} :
    Memory.wfFrom lo ((a, b) :: m) = true ↔
      lo ≤ a ∧ a < 4096 ∧ b ≠ unlistedByte ∧ Memory.wfFrom (a + 1) m = true := by
  simp [Memory.wfFrom, and_assoc]

/-- Canonical from an address is canonical from any lower one. -/
theorem Memory.wfFrom_mono {lo lo' : Nat} {m : Memory} (h : lo' ≤ lo) (hm : Memory.wfFrom lo m = true) :
    Memory.wfFrom lo' m = true := by
  cases m with
  | nil => rfl
  | cons p m =>
    rw [Memory.wfFrom_cons] at hm ⊢
    exact ⟨h.trans hm.1, hm.2⟩

/-- A write at or above the bound keeps the canonical form. -/
theorem Memory.wfFrom_write {lo k : Nat} {b : Byte} {m : Memory} (hk : k < 4096) (hlo : lo ≤ k)
    (hm : Memory.wfFrom lo m = true) : Memory.wfFrom lo (m.write k b) = true := by
  induction m generalizing lo with
  | nil =>
    by_cases hb : b = unlistedByte
    · simp [Memory.write, hb, Memory.wfFrom]
    · simp [Memory.write, hb, Memory.wfFrom, hk, hlo]
  | cons p m ih =>
    obtain ⟨a, c⟩ := p
    rw [Memory.wfFrom_cons] at hm
    obtain ⟨h1, h2, h3, h4⟩ := hm
    unfold Memory.write
    split
    · rename_i hlt
      exact Memory.wfFrom_cons.mpr ⟨h1, h2, h3, ih (by omega) h4⟩
    · split
      · rename_i heq
        subst heq
        split
        · exact Memory.wfFrom_mono (by omega) h4
        · rename_i hb
          exact Memory.wfFrom_cons.mpr ⟨hlo, hk, hb, h4⟩
      · split
        · exact Memory.wfFrom_cons.mpr ⟨h1, h2, h3, h4⟩
        · rename_i hb
          exact Memory.wfFrom_cons.mpr ⟨hlo, hk, hb, Memory.wfFrom_cons.mpr ⟨by omega, h2, h3, h4⟩⟩

/-- Every write to an address of the space keeps the canonical form. -/
theorem Memory.wf_write {k : Nat} {b : Byte} {m : Memory} (hk : k < 4096) (hm : m.wf = true) :
    (m.write k b).wf = true :=
  Memory.wfFrom_write hk (Nat.zero_le k) hm

/-! ## Reads -/

/-- Below the lowest listed address, memory reads as unlisted. -/
theorem Memory.read_below {lo k : Nat} {m : Memory} (hk : k < lo) (hm : Memory.wfFrom lo m = true) :
    m.read k = unlistedByte := by
  induction m generalizing lo with
  | nil => rfl
  | cons p m ih =>
    obtain ⟨a, c⟩ := p
    rw [Memory.wfFrom_cons] at hm
    have : a ≠ k := by omega
    simp only [Memory.read, if_neg this]
    exact ih (by omega) hm.2.2.2

/-- A write leaves every other address alone, in any memory. -/
theorem Memory.read_write_of_ne {k a : Nat} {b : Byte} {m : Memory} (h : a ≠ k) :
    (m.write k b).read a = m.read a := by
  induction m with
  | nil =>
    unfold Memory.write
    split
    · rfl
    · simp [Memory.read, Ne.symm h]
  | cons p m ih =>
    obtain ⟨c, d⟩ := p
    unfold Memory.write
    split
    · simp only [Memory.read, ih]
    · split
      · rename_i heq
        subst heq
        split <;> simp [Memory.read, Ne.symm h]
      · split
        · rfl
        · simp only [Memory.read, if_neg (Ne.symm h)]

/-- A read after a write to the same address gives the value written, in a canonical memory. -/
theorem Memory.read_write_self {lo k : Nat} {b : Byte} {m : Memory} (hm : Memory.wfFrom lo m = true) :
    (m.write k b).read k = b := by
  induction m generalizing lo with
  | nil =>
    unfold Memory.write
    split
    · rename_i hb; simp [Memory.read, hb]
    · simp [Memory.read]
  | cons p m ih =>
    obtain ⟨c, d⟩ := p
    rw [Memory.wfFrom_cons] at hm
    unfold Memory.write
    split
    · rename_i hlt
      have : c ≠ k := by omega
      simp only [Memory.read, if_neg this]
      exact ih hm.2.2.2
    · split
      · rename_i heq
        subst heq
        split
        · rename_i hb
          rw [hb]
          exact Memory.read_below (Nat.lt_succ_self c) hm.2.2.2
        · simp [Memory.read]
      · split
        · rename_i hb
          have : c ≠ k := by omega
          simp only [Memory.read, if_neg this, hb]
          exact Memory.read_below (lo := c + 1) (by omega) hm.2.2.2
        · simp [Memory.read]

/-! ## Multi-byte stores -/

theorem effAddr_lt (base : Word) (k : Nat) : effAddr base k < 4096 := Nat.mod_lt _ (by decide)

@[simp] theorem effAddr_mod (base : Word) (k : Nat) : effAddr base k % 4096 = effAddr base k :=
  Nat.mod_eq_of_lt (effAddr_lt base k)

/-- Fewer than 4096 bytes apart, two bytes of an access have two addresses. -/
theorem effAddr_inj {base : Word} {j k n : Nat} (hn : n ≤ 4096) (hj : j < n) (hk : k < n)
    (h : effAddr base j = effAddr base k) : j = k := by
  unfold effAddr at h
  omega

/-- A store keeps the canonical form. -/
theorem storeFrom_wf {base : Word} {bs : List Byte} {k : Nat} {m : Memory} (hm : m.wf = true) :
    (storeFrom base k bs m).wf = true := by
  induction bs generalizing k m with
  | nil => exact hm
  | cons b bs ih => exact ih (Memory.wf_write (effAddr_lt base k) hm)

/-- A store leaves every address alone that is none of its bytes'. -/
theorem storeFrom_read_other {base : Word} {bs : List Byte} {k a : Nat} {m : Memory}
    (h : ∀ j < bs.length, a ≠ effAddr base (k + j)) : (storeFrom base k bs m).read a = m.read a := by
  induction bs generalizing k m with
  | nil => rfl
  | cons b bs ih =>
    have h0 : a ≠ effAddr base k := h 0 (by simp)
    have hs : ∀ j < bs.length, a ≠ effAddr base (k + 1 + j) := fun j hj => by
      have := h (j + 1) (by simpa using hj)
      rwa [show k + (j + 1) = k + 1 + j by omega] at this
    rw [storeFrom, ih hs, Memory.read_write_of_ne h0]

/-- Byte `j` of a store reads back, in a canonical memory, if the store is no longer than the address space. -/
theorem storeFrom_read_byte {base : Word} {bs : List Byte} {k j : Nat} {m : Memory} (hm : m.wf = true)
    (hj : j < bs.length) (hn : bs.length ≤ 4096) :
    (storeFrom base k bs m).read (effAddr base (k + j)) = bs[j] := by
  induction bs generalizing k j m with
  | nil => simp at hj
  | cons b bs ih =>
    have hw := Memory.wf_write (b := b) (effAddr_lt base k) hm
    simp only [List.length_cons] at hj hn
    rw [storeFrom]
    cases j with
    | zero =>
      rw [storeFrom_read_other (fun i hi h => ?_)]
      · exact Memory.read_write_self hm
      · have : (base.toNat + (k + 0)) % 4096 = (base.toNat + (k + 1 + i)) % 4096 := h
        omega
    | succ j =>
      have := ih (k := k + 1) (j := j) hw (by omega) (by omega)
      rw [show k + (j + 1) = k + 1 + j by omega]
      simpa using this

/-- A byte of the address space after a store to it. -/
theorem readByte_storeBytes {s : State} {base : Word} {bs : List Byte} {j : Nat} (hm : s.mem.wf = true)
    (hj : j < bs.length) (hn : bs.length ≤ 4096) :
    (s.storeBytes base bs).readByte (effAddr base j) = bs[j] := by
  have := storeFrom_read_byte (base := base) (k := 0) hm hj hn
  simpa [State.readByte] using this

/-- Every byte that a store does not reach reads as before. -/
theorem readByte_storeBytes_other {s : State} {base : Word} {bs : List Byte} {a : Nat}
    (h : a % 4096 ∉ (List.range bs.length).map (effAddr base)) :
    (s.storeBytes base bs).readByte a = s.readByte a := by
  have h' : ∀ j < bs.length, a % 4096 ≠ effAddr base (0 + j) := fun j hj he =>
    h (List.mem_map.mpr ⟨j, List.mem_range.mpr hj, by rw [he, Nat.zero_add]⟩)
  simpa [State.readByte] using storeFrom_read_other (m := s.mem) h'

end Sys2Proof.Machine
end

