-- ==== Sys2Proof/Laws/Registers.lean ====
section
/-! SUPPORT. What the shared operations over registers, operands, the stack and the framebuffer can do, each said once. -/

namespace Sys2Proof.Machine

variable {s : State}

/-! ## Registers -/

/-- `V[r]` after a register write: the byte written if `r` is the register, else as before. -/
theorem getV_setV {r x : Reg} {b : Byte} : (s.setV x b).getV r = if r = x then b else s.getV r := by
  simp only [State.getV, setV_v, Vector.getElem_set, Fin.ext_iff]
  by_cases h : x.val = r.val
  · simp [h]
  · simp [h, Ne.symm h]

@[simp] theorem getV_setV_self {x : Reg} {b : Byte} : (s.setV x b).getV x = b := by simp [getV_setV]

theorem getV_setV_of_ne {r x : Reg} {b : Byte} (h : r ≠ x) : (s.setV x b).getV r = s.getV r := by
  simp [getV_setV, h]

/-- After a result and flag write, VF holds the flag, whatever the result's register. -/
@[simp] theorem getV_setVFlag_vf {x : Reg} {b c : Byte} : (s.setVFlag x b c).getV vf = c := getV_setV_self

theorem getV_setVFlag_dest {x : Reg} {b c : Byte} (h : x ≠ vf) : (s.setVFlag x b c).getV x = b := by
  rw [State.setVFlag, getV_setV_of_ne h, getV_setV_self]

theorem getV_setVFlag_of_ne {r x : Reg} {b c : Byte} (hx : r ≠ x) (hf : r ≠ vf) :
    (s.setVFlag x b c).getV r = s.getV r := by
  rw [State.setVFlag, getV_setV_of_ne hf, getV_setV_of_ne hx]

/-- A flag written over a result in the same register leaves only the flag (R122). -/
theorem setVFlag_vf {b c : Byte} : s.setVFlag vf b c = s.setV vf c := by
  simp [State.setVFlag, State.setV]

/-- Fx65 fills V0..Vx from memory and leaves the registers above. -/
theorem getV_loadRegs {x r : Reg} :
    (s.loadRegs x).getV r = if r ≤ x then s.readByte (effAddr s.i r.val) else s.getV r := by
  simp [State.loadRegs, State.getV]

theorem regsTo_length {x : Reg} : (s.regsTo x).length = x.val + 1 := by
  simp [State.regsTo]

theorem regsTo_get {x k : Reg} (hk : k.val < (s.regsTo x).length) :
    (s.regsTo x)[k.val] = s.getV k := by
  simp [State.regsTo, State.getV]

/-! ## Reads depend on one field each -/

theorem getV_congr {t : State} (h : t.v = s.v) (r : Reg) : t.getV r = s.getV r := by simp [State.getV, h]

theorem readByte_congr {t : State} (h : t.mem = s.mem) (a : Nat) : t.readByte a = s.readByte a := by
  simp [State.readByte, h]

theorem blocked_congr {t : State} (h : t.params = s.params) (op : XOp) (x : Reg) :
    t.blocked op x = s.blocked op x := by simp [State.blocked, h]

/-! ## The operand check -/

theorem blocked_eq_true {op : XOp} {x : Reg} : s.blocked op x = true ↔ x = vf ∧ s.params.guards op = true := by
  simp [State.blocked]

theorem blocked_of_ne {op : XOp} {x : Reg} (h : x ≠ vf) : s.blocked op x = false := by
  simp [State.blocked, h]

/-- An instruction whose operand check passes is its rule. -/
theorem guarded_of_pass {op : XOp} {x : Reg} {r : Res} (h : s.blocked op x = false) : guarded op x s r = r := by
  simp [guarded, h]

/-- An instruction whose operand check fails raises InvalidOperand. -/
theorem guarded_of_block {op : XOp} {x : Reg} {r : Res} (h : s.blocked op x = true) :
    guarded op x s r = raise .invalidOperand := by simp [guarded, h]

/-- A checked instruction that answers a next state passed its check, and its rule gave that state. -/
theorem guarded_next {op : XOp} {x : Reg} {r : Res} {t : State} (h : guarded op x s r = .next t) :
    s.blocked op x = false ∧ r = .next t := by
  cases hb : s.blocked op x
  · rw [guarded_of_pass hb] at h
    exact ⟨rfl, h⟩
  · rw [guarded_of_block hb] at h
    cases h

/-! ## The number of an outcome -/

@[simp] theorem resultCode_next {t : State} : resultCode (.next t) = some 0 := rfl
@[simp] theorem resultCode_raise {e : Err} : resultCode (raise e) = some e.code := rfl

/-- Every error has a number of its own, and none has that of Ok (R230, R231). -/
theorem code_inj {e f : Err} : e.code = f.code ↔ e = f := by cases e <;> cases f <;> decide

theorem code_ne_zero (e : Err) : e.code ≠ 0 := by cases e <;> decide

/-- The number of a checked instruction: that of InvalidOperand where the check fails, else that of its rule. -/
theorem resultCode_guarded {op : XOp} {x : Reg} {r : Res} :
    resultCode (guarded op x s r) = if s.blocked op x then some 2 else resultCode r := by
  cases h : s.blocked op x <;> simp [guarded, h, Err.code]

/-! ## Skips and the key test -/

/-- A skip changes PC and nothing else. -/
theorem skipIf_eq (c : Bool) : s.skipIf c = s.setPc (if c then s.pc + 2#16 else s.pc) := by
  cases c <;> rfl

theorem pressed_eq_true {b : Byte} : s.pressed b = true ↔ b.toNat < 16 ∧ s.keypad.getLsbD b.toNat = true := by
  simp [State.pressed]

/-! ## Sprites -/

/-- The rows of a draw land on different framebuffer rows (R145 b). -/
theorem targetRow_inj {y : Reg} {j k : Nat} (hj : j < 16) (hk : k < 16) (h : s.targetRow y j = s.targetRow y k) :
    j = k := by
  simp only [State.targetRow, Fin.mk.injEq] at h
  omega

/-- A framebuffer row that no sprite row lands on is as before; one that sprite row `k` lands on is XORed with its mask. -/
theorem drawRows_row {x y : Reg} {n : Nat} (hn : n ≤ 16) (r : Fin 32) :
    (∀ k < n, s.targetRow y k = r → (s.drawRows x y n).1[r.val] = s.fb[r.val] ^^^ s.spriteMask x k)
    ∧ ((∀ k < n, s.targetRow y k ≠ r) → (s.drawRows x y n).1[r.val] = s.fb[r.val]) := by
  induction n with
  | zero => simp [State.drawRows]
  | succ n ih =>
    obtain ⟨ih1, ih2⟩ := ih (by omega)
    simp only [State.drawRows]
    refine ⟨fun k hk hr => ?_, fun h => ?_⟩
    · by_cases hkn : k = n
      · subst hkn
        simp [hr]
      · have hne : s.targetRow y n ≠ r := fun he => hkn (targetRow_inj (by omega) (by omega) (hr.trans he.symm))
        rw [Vector.getElem_set_ne _ _ (fun he => hne (Fin.ext he))]
        exact ih1 k (by omega) hr
    · rw [Vector.getElem_set_ne _ _ (fun he => h n (by omega) (Fin.ext he))]
      exact ih2 fun k hk => h k (by omega)

/-- The collision bits of a draw: those of each sprite row with the framebuffer row it lands on. -/
theorem drawRows_collision {x y : Reg} {n : Nat} :
    (s.drawRows x y n).2 ≠ 0#64 ↔ ∃ k < n, s.fb[(s.targetRow y k).val] &&& s.spriteMask x k ≠ 0#64 := by
  induction n with
  | zero => simp [State.drawRows]
  | succ n ih =>
    have hor : ∀ a b : Row, a ||| b ≠ 0#64 ↔ a ≠ 0#64 ∨ b ≠ 0#64 := fun a b => by
      rw [ne_eq, BitVec.or_eq_zero_iff, not_and_or]
    simp only [State.drawRows, hor, ih, Nat.lt_succ_iff_lt_or_eq, or_and_right, exists_or, exists_eq_left]

end Sys2Proof.Machine
end

