-- ==== Sys2Proof/Laws/Step.lean ====
section
/-! SUPPORT. What STEP, CYCLE and a transaction can do, each said once: later proofs take these case lists instead of
unfolding the machine. -/

namespace Sys2Proof.Machine

variable {s t : State}

/-- A STEP that answers a next state is a no-op under a key wait, or one instruction. -/
theorem stepWord_next {w : Word} (h : stepWord w s = .next t) :
    ((∃ x, s.wait = .waiting x) ∧ t = s) ∨ (s.wait = .idle ∧ ∃ i, decode w = .ok i ∧ exec i s = .next t) := by
  unfold stepWord at h
  split at h
  · rename_i x hx
    cases h
    exact .inl ⟨⟨x, hx⟩, rfl⟩
  · rename_i hw
    split at h
    · cases h
    · rename_i i hi
      exact .inr ⟨hw, i, hi, h⟩

/-- A STEP that ends with a fault did not wait for a key, and its word did not decode or its instruction raised it. -/
theorem stepWord_fault {w : Word} {f : Fault} (h : stepWord w s = .fault f) :
    s.wait = .idle ∧ ((∃ e, decode w = .error e) ∧ f = .raised .unknownOpcode
      ∨ ∃ i, decode w = .ok i ∧ exec i s = .fault f) := by
  unfold stepWord at h
  split at h
  · cases h
  · rename_i hw
    refine ⟨hw, ?_⟩
    split at h
    · rename_i e he
      cases h
      exact .inl ⟨⟨e, he⟩, rfl⟩
    · rename_i i hi
      exact .inr ⟨i, hi, h⟩

/-- A CYCLE that answers a next state latched a bad fetch, ran its STEP, or latched its STEP's error. -/
theorem cycle_next (h : cycle s = .next t) :
    s.fault = none ∧ s.wait = .idle ∧
      (fetchable s.pc = false ∧ t = s.latch .pcOutOfRange
      ∨ fetchable s.pc = true ∧ stepWord s.fetchWord s.advancePc = .next t
      ∨ ∃ e, fetchable s.pc = true ∧ stepWord s.fetchWord s.advancePc = .fault (.raised e)
          ∧ t = s.advancePc.latch e) := by
  unfold cycle at h
  split at h
  · cases h
  · rename_i hf
    split at h
    · cases h
    · rename_i hw
      refine ⟨hf, hw, ?_⟩
      split at h
      · rename_i hp
        cases hr : stepWord s.fetchWord s.advancePc with
        | next u =>
          rw [hr] at h
          cases h
          exact .inr (.inl ⟨hp, rfl⟩)
        | fault f =>
          rw [hr] at h
          cases f with
          | raised e =>
            cases h
            exact .inr (.inr ⟨e, hp, rfl, rfl⟩)
          | faultLatched e => cases h
          | keyWaitHold x => cases h
        | refused r =>
          rw [hr] at h
          cases h
      · rename_i hp
        cases h
        exact .inl ⟨by simpa using hp, rfl⟩

/-- A ready machine with a PC it may fetch from runs the STEP of the word there. -/
theorem cycle_runs (hf : s.fault = none) (hw : s.wait = .idle) (hp : fetchable s.pc = true) :
    cycle s = catchError s.advancePc (stepWord s.fetchWord s.advancePc) := by
  simp [cycle, hf, hw, hp]

/-- A CYCLE under a latched fault or a key wait has no next state. -/
theorem cycle_held (h : s.fault ≠ none ∨ s.wait ≠ .idle) : cycle s ≠ .next t := by
  intro hc
  obtain ⟨hf, hw, -⟩ := cycle_next hc
  exact h.elim (fun h => h hf) (fun h => h hw)

/-- With nothing queued the step is a CYCLE. -/
theorem step_of_empty (h : s.schedule = []) : step s = cycle s := by simp [step, advance, h]

/-- With a transaction queued the step is that transaction, the rest staying queued. -/
theorem step_of_queued {m : HostMove} {rest : List HostMove} (h : s.schedule = m :: rest) :
    step s = transact m (s.setSchedule rest) := by simp [step, advance, h]

end Sys2Proof.Machine
end

