-- ==== Sys2Proof/Laws/Frames.lean ====
section
/-! SUPPORT. What each shared update leaves unchanged, each said once in the terms of Safety.lean. -/

namespace Sys2Proof.Machine

variable {s : State}

theorem unchanged_refl (w : Writes) : Unchanged w s s := by simp [Unchanged]

theorem unchanged_setV (x : Reg) (b : Byte) : Unchanged { regs := [x] } s (s.setV x b) := by
  refine ⟨fun r hr => getV_setV_of_ne (by simpa using hr), ?_⟩
  simp [State.readByte]

theorem unchanged_setVFlag (x : Reg) (b c : Byte) : Unchanged { regs := [x, vf] } s (s.setVFlag x b c) := by
  refine ⟨fun r hr => ?_, ?_⟩
  · simp only [List.mem_cons, List.not_mem_nil, or_false, not_or] at hr
    exact getV_setVFlag_of_ne hr.1 hr.2
  · simp [State.readByte]

theorem unchanged_loadRegs (x : Reg) :
    Unchanged { regs := (List.finRange 16).filter (fun r => r ≤ x) } s (s.loadRegs x) := by
  refine ⟨fun r hr => ?_, ?_⟩
  · simp only [List.mem_filter, List.mem_finRange, decide_eq_true_eq, true_and] at hr
    simp [getV_loadRegs, hr]
  · simp [State.readByte]

theorem unchanged_setPc (w : Word) : Unchanged { pc := true } s (s.setPc w) := by
  simp [Unchanged, State.getV, State.readByte]

theorem unchanged_skipIf (c : Bool) : Unchanged { pc := true } s (s.skipIf c) := by
  rw [skipIf_eq]
  exact unchanged_setPc _

theorem unchanged_setI (w : Word) : Unchanged { index := true } s (s.setI w) := by
  simp [Unchanged, State.getV, State.readByte]

theorem unchanged_setFb (f : Vector Row 32) : Unchanged { fb := true } s (s.setFb f) := by
  simp [Unchanged, State.getV, State.readByte]

theorem unchanged_setDt (b : Byte) : Unchanged { dt := true } s (s.setDt b) := by
  simp [Unchanged, State.getV, State.readByte]

theorem unchanged_setSt (b : Byte) : Unchanged { st := true } s (s.setSt b) := by
  simp [Unchanged, State.getV, State.readByte]

theorem unchanged_setKeypad (m : Word) : Unchanged { keypad := true } s (s.setKeypad m) := by
  simp [Unchanged, State.getV, State.readByte]

theorem unchanged_setWait (k : KeyWait) : Unchanged { wait := true } s (s.setWait k) := by
  simp [Unchanged, State.getV, State.readByte]

theorem unchanged_storeBytes (base : Word) (bs : List Byte) :
    Unchanged { mem := (List.range bs.length).map (effAddr base) } s (s.storeBytes base bs) := by
  refine ⟨fun r _ => by simp [State.getV], fun a ha => readByte_storeBytes_other ha, ?_⟩
  simp

theorem unchanged_memLoad (a : Addr12) (b : Byte) : Unchanged { mem := [a.toNat] } s (s.memLoad a b) := by
  refine ⟨fun r _ => by simp [State.getV], fun k hk => ?_, ?_⟩
  · simp only [State.readByte, memLoad_mem]
    exact Memory.read_write_of_ne (by simpa using hk)
  · simp

/-- A byte of memory is what every fetch of its address reads (R63, R74). -/
theorem fetchReads_of_readByte {t : State} {a : Nat} {b : Byte} (h : t.readByte a = b) : FetchReads t a b := by
  intro u hm _
  constructor <;> intro ha
  · rw [State.fetchWord, State.wordAt, hiByte_wordOfBytes, ha, readByte_congr hm, h]
  · rw [State.fetchWord, State.wordAt, loByte_wordOfBytes, ha, readByte_congr hm, h]

end Sys2Proof.Machine
end

