-- ==== Sys2Proof/Laws/PerInstr.lean ====
section
/-! SUPPORT. Statements about every instruction as syntax, one lemma for each constructor. -/

namespace Sys2Proof.Laws

/-! The bits that a row's mask keeps of a word built from its fields (R82): those of the fixed fields. -/

theorem maskClass (b : Nat) (h : b < 16) : (0xF000 : Word).getLsbD b = decide (12 ≤ b) := by
  interval_cases b <;> rfl

theorem maskClassLow8 (b : Nat) (h : b < 16) : (0xF0FF : Word).getLsbD b = (decide (12 ≤ b) || decide (b < 8)) := by
  interval_cases b <;> rfl

theorem maskClassLow4 (b : Nat) (h : b < 16) : (0xF00F : Word).getLsbD b = (decide (12 ≤ b) || decide (b < 4)) := by
  interval_cases b <;> rfl

theorem encAddr_and (c : BitVec 4) (a : Addr12) : encAddr c a &&& 0xF000 = encAddr c 0 := by
  refine BitVec.eq_of_getLsbD_eq fun b hb => ?_
  rw [BitVec.getLsbD_and, maskClass b hb]
  simp only [getLsbD_encAddr]
  split_ifs <;> simp_all

theorem encXkk_and (c : BitVec 4) (x : Reg) (k : Byte) : encXkk c x k &&& 0xF000 = encAddr c 0 := by
  refine BitVec.eq_of_getLsbD_eq fun b hb => ?_
  rw [BitVec.getLsbD_and, maskClass b hb]
  simp only [getLsbD_encXkk, getLsbD_encAddr]
  split_ifs <;> simp_all [nibble]

theorem encXkk_and_low (c : BitVec 4) (x : Reg) (k : Byte) : encXkk c x k &&& 0xF0FF = encXkk c 0 k := by
  refine BitVec.eq_of_getLsbD_eq fun b hb => ?_
  rw [BitVec.getLsbD_and, maskClassLow8 b hb]
  simp only [getLsbD_encXkk]
  split_ifs <;> simp_all [nibble]

theorem encXyn_and (c : BitVec 4) (x y : Reg) (n : Fin 16) : encXyn c x y n &&& 0xF000 = encAddr c 0 := by
  refine BitVec.eq_of_getLsbD_eq fun b hb => ?_
  rw [BitVec.getLsbD_and, maskClass b hb]
  simp only [getLsbD_encXyn, getLsbD_encAddr]
  split_ifs <;> simp_all [nibble]

theorem encXyn_and_low (c : BitVec 4) (x y : Reg) (n : Fin 16) : encXyn c x y n &&& 0xF00F = encXyn c 0 0 n := by
  refine BitVec.eq_of_getLsbD_eq fun b hb => ?_
  rw [BitVec.getLsbD_and, maskClassLow4 b hb]
  simp only [getLsbD_encXyn]
  split_ifs <;> simp_all [nibble]
  omega

/-- A well-formed instruction's word matches the mask and value that the opcode table prints for its row (R94). -/
def EncodesItsRow.Statement (i : Instr) : Prop := i.wellFormed = true → i.row.accepts (encode i) = true

theorem EncodesItsRow.sys (nnn : Addr12) : EncodesItsRow.Statement (.sys nnn) := fun _ => by
  rw [OpRow.accepts, Instr.row, encode, encAddr_and]
  decide

theorem EncodesItsRow.cls : EncodesItsRow.Statement .cls := fun _ => by decide

theorem EncodesItsRow.ret : EncodesItsRow.Statement .ret := fun _ => by decide

theorem EncodesItsRow.jp (nnn : Addr12) : EncodesItsRow.Statement (.jp nnn) := fun _ => by
  rw [OpRow.accepts, Instr.row, encode, encAddr_and]
  decide

theorem EncodesItsRow.call (nnn : Addr12) : EncodesItsRow.Statement (.call nnn) := fun _ => by
  rw [OpRow.accepts, Instr.row, encode, encAddr_and]
  decide

theorem EncodesItsRow.seImm (x : Reg) (kk : Byte) : EncodesItsRow.Statement (.seImm x kk) := fun _ => by
  rw [OpRow.accepts, Instr.row, encode, encXkk_and]
  decide

theorem EncodesItsRow.sneImm (x : Reg) (kk : Byte) : EncodesItsRow.Statement (.sneImm x kk) := fun _ => by
  rw [OpRow.accepts, Instr.row, encode, encXkk_and]
  decide

theorem EncodesItsRow.seReg (x y : Reg) : EncodesItsRow.Statement (.seReg x y) := fun _ => by
  rw [OpRow.accepts, Instr.row, encode, encXyn_and_low]
  decide

theorem EncodesItsRow.ldImm (x : Reg) (kk : Byte) : EncodesItsRow.Statement (.ldImm x kk) := fun _ => by
  rw [OpRow.accepts, Instr.row, encode, encXkk_and]
  decide

theorem EncodesItsRow.addImm (x : Reg) (kk : Byte) : EncodesItsRow.Statement (.addImm x kk) := fun _ => by
  rw [OpRow.accepts, Instr.row, encode, encXkk_and]
  decide

theorem EncodesItsRow.ldReg (x y : Reg) : EncodesItsRow.Statement (.ldReg x y) := fun _ => by
  rw [OpRow.accepts, Instr.row, encode, encXyn_and_low]
  decide

theorem EncodesItsRow.orReg (x y : Reg) : EncodesItsRow.Statement (.orReg x y) := fun _ => by
  rw [OpRow.accepts, Instr.row, encode, encXyn_and_low]
  decide

theorem EncodesItsRow.andReg (x y : Reg) : EncodesItsRow.Statement (.andReg x y) := fun _ => by
  rw [OpRow.accepts, Instr.row, encode, encXyn_and_low]
  decide

theorem EncodesItsRow.xorReg (x y : Reg) : EncodesItsRow.Statement (.xorReg x y) := fun _ => by
  rw [OpRow.accepts, Instr.row, encode, encXyn_and_low]
  decide

theorem EncodesItsRow.addReg (x y : Reg) : EncodesItsRow.Statement (.addReg x y) := fun _ => by
  rw [OpRow.accepts, Instr.row, encode, encXyn_and_low]
  decide

theorem EncodesItsRow.sub (x y : Reg) : EncodesItsRow.Statement (.sub x y) := fun _ => by
  rw [OpRow.accepts, Instr.row, encode, encXyn_and_low]
  decide

theorem EncodesItsRow.shr (x y : Reg) : EncodesItsRow.Statement (.shr x y) := fun _ => by
  rw [OpRow.accepts, Instr.row, encode, encXyn_and_low]
  decide

theorem EncodesItsRow.subn (x y : Reg) : EncodesItsRow.Statement (.subn x y) := fun _ => by
  rw [OpRow.accepts, Instr.row, encode, encXyn_and_low]
  decide

theorem EncodesItsRow.shl (x y : Reg) : EncodesItsRow.Statement (.shl x y) := fun _ => by
  rw [OpRow.accepts, Instr.row, encode, encXyn_and_low]
  decide

theorem EncodesItsRow.sneReg (x y : Reg) : EncodesItsRow.Statement (.sneReg x y) := fun _ => by
  rw [OpRow.accepts, Instr.row, encode, encXyn_and_low]
  decide

theorem EncodesItsRow.ldI (nnn : Addr12) : EncodesItsRow.Statement (.ldI nnn) := fun _ => by
  rw [OpRow.accepts, Instr.row, encode, encAddr_and]
  decide

theorem EncodesItsRow.jpV0 (nnn : Addr12) : EncodesItsRow.Statement (.jpV0 nnn) := fun _ => by
  rw [OpRow.accepts, Instr.row, encode, encAddr_and]
  decide

theorem EncodesItsRow.rnd (x : Reg) (kk : Byte) : EncodesItsRow.Statement (.rnd x kk) := fun _ => by
  rw [OpRow.accepts, Instr.row, encode, encXkk_and]
  decide

theorem EncodesItsRow.drw (x y : Reg) (n : Fin 16) : EncodesItsRow.Statement (.drw x y n) := fun _ => by
  rw [OpRow.accepts, Instr.row, encode, encXyn_and]
  decide

theorem EncodesItsRow.skp (x : Reg) : EncodesItsRow.Statement (.skp x) := fun _ => by
  rw [OpRow.accepts, Instr.row, encode, encXkk_and_low]
  decide

theorem EncodesItsRow.sknp (x : Reg) : EncodesItsRow.Statement (.sknp x) := fun _ => by
  rw [OpRow.accepts, Instr.row, encode, encXkk_and_low]
  decide

theorem EncodesItsRow.ldVxDt (x : Reg) : EncodesItsRow.Statement (.ldVxDt x) := fun _ => by
  rw [OpRow.accepts, Instr.row, encode, encXkk_and_low]
  decide

theorem EncodesItsRow.ldVxK (x : Reg) : EncodesItsRow.Statement (.ldVxK x) := fun _ => by
  rw [OpRow.accepts, Instr.row, encode, encXkk_and_low]
  decide

theorem EncodesItsRow.ldDtVx (x : Reg) : EncodesItsRow.Statement (.ldDtVx x) := fun _ => by
  rw [OpRow.accepts, Instr.row, encode, encXkk_and_low]
  decide

theorem EncodesItsRow.ldStVx (x : Reg) : EncodesItsRow.Statement (.ldStVx x) := fun _ => by
  rw [OpRow.accepts, Instr.row, encode, encXkk_and_low]
  decide

theorem EncodesItsRow.addI (x : Reg) : EncodesItsRow.Statement (.addI x) := fun _ => by
  rw [OpRow.accepts, Instr.row, encode, encXkk_and_low]
  decide

theorem EncodesItsRow.ldF (x : Reg) : EncodesItsRow.Statement (.ldF x) := fun _ => by
  rw [OpRow.accepts, Instr.row, encode, encXkk_and_low]
  decide

theorem EncodesItsRow.ldB (x : Reg) : EncodesItsRow.Statement (.ldB x) := fun _ => by
  rw [OpRow.accepts, Instr.row, encode, encXkk_and_low]
  decide

theorem EncodesItsRow.ldMemVx (x : Reg) : EncodesItsRow.Statement (.ldMemVx x) := fun _ => by
  rw [OpRow.accepts, Instr.row, encode, encXkk_and_low]
  decide

theorem EncodesItsRow.ldVxMem (x : Reg) : EncodesItsRow.Statement (.ldVxMem x) := fun _ => by
  rw [OpRow.accepts, Instr.row, encode, encXkk_and_low]
  decide

end Sys2Proof.Laws
end

