-- ==== Sys2Proof/Tests/Slice0.lean ====
section
/-! SUPPORT. Tests of the model on small states, and a witness for the hypotheses of every statement that has some.
Words and expected results are those of the spec: the encodings of spec/30_encoding.md (R81 to R94) and the vectors of
spec/95_test_vectors.md. -/

open Sys2Proof Sys2Proof.Machine

namespace Sys2Proof.Tests

/-! ## Helpers -/

def nextOf : Res → Option State
  | .next s => some s
  | .fault _ => none
  | .refused _ => none

def faultOf : Res → Option Fault
  | .next _ => none
  | .fault f => some f
  | .refused _ => none

/-- One field, read off the next state of an outcome. -/
def see {α : Type} (f : State → α) (r : Res) : Option α := (nextOf r).map f

def regs (s : State) : List (Reg × Byte) → State
  | [] => s
  | (r, b) :: l => regs (s.setV r b) l

def bytes (s : State) : List (Nat × Byte) → State
  | [] => s
  | (a, b) :: l => bytes { s with mem := s.mem.write a b } l

/-- The state whose next CYCLE fetches `w` at 0x200, with registers set. -/
def at200 (w : Nat) (l : List (Reg × Byte)) : State := regs (State.reset.withFetchWord 16 w) l

/-- V[r] and VF after the CYCLE of `w`. -/
def alu (w : Nat) (l : List (Reg × Byte)) (r : Reg) : Option (Byte × Byte) :=
  see (fun s => (s.getV r, s.getV vf)) (step (at200 w l))

def noBorrow : Params := { Params.default with borrowMode := .noBorrow }

def everyXOp : List XOp :=
  [.seImm, .sneImm, .seReg, .ldImm, .addImm, .ldReg, .orReg, .andReg, .xorReg, .addReg, .sub, .shr, .subn, .shl,
   .sneReg, .rnd, .drw, .skp, .sknp, .ldVxDt, .ldVxK, .ldDtVx, .ldStVx, .addI, .ldF, .ldB, .ldMemVx, .ldVxMem]

/-- VF_GUARDED with every opcode and with none. -/
def allGuarded : State := State.resetWith { Params.default with vfGuarded := everyXOp }
def noneGuarded : State := State.resetWith { Params.default with vfGuarded := [] }

/-- The operand check lets `op` run: with any x but VF under every VF_GUARDED, and with x = VF when it is not named. It
stops `op` when x = VF and it is named. -/
def bothWays (op : XOp) : Bool :=
  !allGuarded.blocked op 0 && !allGuarded.blocked op 14 && !noneGuarded.blocked op vf && allGuarded.blocked op vf

/-! ## Well-formed terms -/

theorem test_wellFormed_refuses_sys_spelling_cls : (Instr.sys 0x0E0#12).wellFormed = false := by decide
theorem test_wellFormed_refuses_sys_spelling_ret : (Instr.sys 0x0EE#12).wellFormed = false := by decide
theorem test_wellFormed_accepts :
    (Instr.sys 0x1E0#12).wellFormed = true ∧ Instr.cls.wellFormed = true ∧ (Instr.drw 15 15 15).wellFormed = true := by
  decide

/-! ## Decode: each constructor by a word written out from its encoding -/

theorem test_decode_class0 :
    decodeTableWord 16 0x0123 = some (.sys 0x123#12) ∧ decodeTableWord 16 0x01E0 = some (.sys 0x1E0#12)
    ∧ decodeTableWord 16 0x00E0 = some .cls ∧ decodeTableWord 16 0x00EE = some .ret := by decide
theorem test_decode_addresses :
    decodeTableWord 16 0x1A5C = some (.jp 0xA5C#12) ∧ decodeTableWord 16 0x2A5C = some (.call 0xA5C#12)
    ∧ decodeTableWord 16 0xAA5C = some (.ldI 0xA5C#12) ∧ decodeTableWord 16 0xBA5C = some (.jpV0 0xA5C#12) := by decide
theorem test_decode_immediates :
    decodeTableWord 16 0x3A5C = some (.seImm 10 0x5C#8) ∧ decodeTableWord 16 0x4A5C = some (.sneImm 10 0x5C#8)
    ∧ decodeTableWord 16 0x6A5C = some (.ldImm 10 0x5C#8) ∧ decodeTableWord 16 0x7A5C = some (.addImm 10 0x5C#8)
    ∧ decodeTableWord 16 0xCA5C = some (.rnd 10 0x5C#8) := by decide
theorem test_decode_register_skips :
    decodeTableWord 16 0x5A50 = some (.seReg 10 5) ∧ decodeTableWord 16 0x9A50 = some (.sneReg 10 5)
    ∧ decodeTableWord 16 0x5121 = none ∧ decodeTableWord 16 0x9121 = none := by decide
theorem test_decode_class8 :
    decodeTableWord 16 0x8A50 = some (.ldReg 10 5) ∧ decodeTableWord 16 0x8A51 = some (.orReg 10 5)
    ∧ decodeTableWord 16 0x8A52 = some (.andReg 10 5) ∧ decodeTableWord 16 0x8A53 = some (.xorReg 10 5)
    ∧ decodeTableWord 16 0x8A54 = some (.addReg 10 5) ∧ decodeTableWord 16 0x8A55 = some (.sub 10 5)
    ∧ decodeTableWord 16 0x8A56 = some (.shr 10 5) ∧ decodeTableWord 16 0x8A57 = some (.subn 10 5)
    ∧ decodeTableWord 16 0x8A5E = some (.shl 10 5) := by decide
theorem test_decode_class8_rejects :
    decodeTableWord 16 0x8128 = none ∧ decodeTableWord 16 0x812F = none ∧ decodeTableWord 16 0x8F18 = none := by decide
theorem test_decode_draw : decodeTableWord 16 0xDA5C = some (.drw 10 5 12) := by decide
theorem test_decode_keys :
    decodeTableWord 16 0xEA9E = some (.skp 10) ∧ decodeTableWord 16 0xEAA1 = some (.sknp 10)
    ∧ decodeTableWord 16 0xE19F = none := by decide
theorem test_decode_classF :
    decodeTableWord 16 0xFA07 = some (.ldVxDt 10) ∧ decodeTableWord 16 0xFA0A = some (.ldVxK 10)
    ∧ decodeTableWord 16 0xFA15 = some (.ldDtVx 10) ∧ decodeTableWord 16 0xFA18 = some (.ldStVx 10)
    ∧ decodeTableWord 16 0xFA1E = some (.addI 10) ∧ decodeTableWord 16 0xFA29 = some (.ldF 10)
    ∧ decodeTableWord 16 0xFA33 = some (.ldB 10) ∧ decodeTableWord 16 0xFA55 = some (.ldMemVx 10)
    ∧ decodeTableWord 16 0xFA65 = some (.ldVxMem 10) := by decide
theorem test_decode_classF_rejects : decodeTableWord 16 0xF100 = none ∧ decodeTableWord 16 0xF130 = none := by decide
theorem test_decode_needs_two_bytes : decodeBytes [0x12#8] = .error .truncated := by decide

/-! ## Registers and arithmetic (spec/95_test_vectors.md 2.2) -/

theorem test_ldImm : alu 0x61AB [] 1 = some (0xAB#8, 0#8) := by decide
theorem test_ldImm_vf : alu 0x6F01 [] 15 = some (1#8, 1#8) := by decide
theorem test_addImm_wraps_without_carry : alu 0x7101 [(1, 0xFF#8)] 1 = some (0#8, 0#8) := by decide
theorem test_ldReg : alu 0x8120 [(2, 0x5A#8)] 1 = some (0x5A#8, 0#8) := by decide
theorem test_orReg_keeps_vf : alu 0x8121 [(1, 0xF0#8), (2, 0x0F#8), (15, 1#8)] 1 = some (0xFF#8, 1#8) := by decide
theorem test_andReg : alu 0x8122 [(1, 0xF0#8), (2, 0x3C#8)] 1 = some (0x30#8, 0#8) := by decide
theorem test_xorReg : alu 0x8123 [(1, 0xFF#8), (2, 0x0F#8)] 1 = some (0xF0#8, 0#8) := by decide
theorem test_addReg_carry : alu 0x8124 [(1, 0xFF#8), (2, 1#8)] 1 = some (0#8, 1#8) := by decide
theorem test_addReg_reads_vf_first : alu 0x81F4 [(1, 0x10#8), (15, 0xF5#8)] 1 = some (0x05#8, 1#8) := by decide
theorem test_sub_borrow : alu 0x8125 [(1, 3#8), (2, 5#8)] 1 = some (0xFE#8, 0#8) := by decide
theorem test_sub_equal_operands :
    alu 0x8125 [(1, 3#8), (2, 3#8)] 1 = some (0#8, 0#8)
    ∧ see (fun s => s.getV vf) (exec (.sub 1 2) (State.resetWith noBorrow)) = some 1#8 := by decide
theorem test_shr_reads_vy : alu 0x8126 [(1, 0xAA#8), (2, 3#8)] 1 = some (1#8, 1#8) := by decide
theorem test_subn : alu 0x8127 [(1, 3#8), (2, 5#8)] 1 = some (2#8, 1#8) := by decide
theorem test_subn_borrow : alu 0x8127 [(1, 5#8), (2, 3#8)] 1 = some (0xFE#8, 0#8) := by decide
theorem test_shl : alu 0x812E [(2, 0x81#8)] 1 = some (2#8, 1#8) := by decide
theorem test_shl_no_bit_out : alu 0x812E [(2, 0x7F#8)] 1 = some (0xFE#8, 0#8) := by decide
theorem test_eightXy_refuses_vf_as_x :
    ∀ n ∈ [0x8F20, 0x8F21, 0x8F22, 0x8F23, 0x8F24, 0x8F25, 0x8F26, 0x8F27, 0x8F2E],
      see (fun s => (s.fault, s.pc, s.getV vf)) (step (at200 n [])) = some (some .invalidOperand, 0x0202#16, 0#8) := by
  decide

/-! ## Sprites (2.3) -/

/-- D011 at column 60 with the sprite byte 0xFF at I = 0x300. -/
def drawn : State := bytes { at200 0xD011 [(0, 0x3C#8)] with i := 0x0300#16 } [(0x300, 0xFF#8)]

theorem test_drw_wraps_at_the_right_edge :
    see (fun s => (s.fb[0], s.fb[1], s.getV vf)) (step drawn) = some (0xF00000000000000F#64, 0#64, 0#8) := by decide
theorem test_drw_collides :
    see (fun s => (s.fb[0], s.getV vf))
      (exec (.drw 0 1 1) (bytes { State.reset with
          i := 0x0300#16, fb := State.reset.fb.set 0 0x8000000000000000#64 } [(0x300, 0xC0#8)]))
      = some (0x4000000000000000#64, 1#8) := by decide
theorem test_cls_keeps_vf :
    see (fun s => (s.fb[31], s.getV vf))
      (exec .cls { (State.reset.setV vf 1#8) with fb := Vector.replicate 32 0xFF#64 }) = some (0#64, 1#8) := by decide

/-! ## Control flow (2.4) -/

theorem test_jp : see State.pc (step (at200 0x1234 [])) = some 0x0234#16 := by decide
theorem test_jpV0_is_not_reduced : see State.pc (step (at200 0xBFFF [(0, 0xFF#8)])) = some 0x10FE#16 := by decide
theorem test_call :
    see (fun s => (s.pc, s.sp.val, s.stack[0])) (step (at200 0x2300 [])) = some (0x0300#16, 1, 0x0202#16) := by decide
theorem test_call_overflows :
    see (fun s => (s.pc, s.sp.val, s.fault)) (step { at200 0x2300 [] with sp := 16 })
      = some (0x0202#16, 16, some .stackOverflow) := by decide
theorem test_ret_keeps_the_entry :
    see (fun s => (s.pc, s.sp.val, s.stack[0]))
      (step { at200 0x00EE [] with sp := 1, stack := State.reset.stack.set 0 0x0345#16 })
      = some (0x0345#16, 0, 0x0345#16) := by decide
theorem test_ret_underflows :
    see (fun s => (s.pc, s.fault)) (step (at200 0x00EE [])) = some (0x0202#16, some .stackUnderflow) := by decide
theorem test_sys_is_unknown :
    see (fun s => (s.pc, s.fault)) (step (at200 0x0123 [])) = some (0x0202#16, some .unknownOpcode) := by decide
theorem test_seImm :
    see State.pc (step (at200 0x3142 [(1, 0x42#8)])) = some 0x0204#16
    ∧ see State.pc (step (at200 0x3142 [(1, 0x41#8)])) = some 0x0202#16 := by decide
theorem test_sneImm :
    see State.pc (step (at200 0x4142 [(1, 0x42#8)])) = some 0x0202#16
    ∧ see State.pc (step (at200 0x4142 [(1, 0x41#8)])) = some 0x0204#16 := by decide
theorem test_seReg : see State.pc (step (at200 0x5120 [(1, 7#8), (2, 7#8)])) = some 0x0204#16 := by decide
theorem test_sneReg :
    see State.pc (step (at200 0x9120 [(1, 7#8), (2, 8#8)])) = some 0x0204#16
    ∧ see State.pc (step (at200 0x9110 [(1, 7#8)])) = some 0x0202#16 := by decide
theorem test_skp :
    see State.pc (step { at200 0xE39E [(3, 7#8)] with keypad := 0x0080#16 }) = some 0x0204#16
    ∧ see State.pc (step { at200 0xE39E [(3, 0x10#8)] with keypad := 0xFFFF#16 }) = some 0x0202#16 := by decide
theorem test_sknp :
    see State.pc (step { at200 0xE3A1 [(3, 7#8)] with keypad := 0x0080#16 }) = some 0x0202#16
    ∧ see State.pc (step { at200 0xE3A1 [(3, 0x10#8)] with keypad := 0xFFFF#16 }) = some 0x0204#16 := by decide

/-! ## The index register and memory (2.5) -/

theorem test_ldI : see State.i (step (at200 0xA2F0 [])) = some 0x02F0#16 := by decide
theorem test_addI_wraps_at_16_bits :
    see State.i (step { at200 0xF21E [(2, 1#8)] with i := 0xFFFF#16 }) = some 0x0000#16
    ∧ see State.i (step { at200 0xF21E [(2, 1#8)] with i := 0x0FFF#16 }) = some 0x1000#16 := by decide
theorem test_ldF : see State.i (step (at200 0xF429 [(4, 0x0F#8)])) = some 0x004B#16 := by decide
theorem test_ldF_unmodelled :
    see (fun s => (s.i, s.fault)) (step (at200 0xF429 [(4, 0x10#8)])) = some (0x0000#16, some .unmodelled) := by decide
theorem test_ldB_wraps_in_memory :
    see State.mem (exec (.ldB 5) { (State.reset.setV 5 156#8) with i := 0x0FFF#16 })
      = some [(0, 5#8), (1, 6#8), (0xFFF, 1#8)] := by decide
theorem test_ldMemVx_wraps_in_memory :
    see (fun s => (s.mem, s.i)) (exec (.ldMemVx 3)
        { (regs State.reset [(0, 0x11#8), (1, 0x22#8), (2, 0x33#8), (3, 0x44#8)]) with i := 0x0FFE#16 })
      = some ([(0, 0x33#8), (1, 0x44#8), (0xFFE, 0x11#8), (0xFFF, 0x22#8)], 0x0FFE#16) := by decide
theorem test_ldVxMem_stops_at_x :
    see (fun s => (s.getV 0, s.getV 1, s.getV 2, s.i)) (exec (.ldVxMem 1)
        { (bytes State.reset [(0x400, 0x11#8), (0x401, 0x22#8), (0x402, 0x33#8)]) with i := 0x0400#16 })
      = some (0x11#8, 0x22#8, 0x00#8, 0x0400#16) := by decide

/-! ## Timers, key wait, random (2.6) -/

theorem test_ldVxDt : see (fun s => s.getV 2) (step { at200 0xF207 [] with dt := 0x3C#8 }) = some 0x3C#8 := by decide
theorem test_ldDtVx : see State.dt (step (at200 0xF215 [(2, 0x3C#8)])) = some 0x3C#8 := by decide
theorem test_ldStVx : see State.st (step (at200 0xF218 [(2, 5#8)])) = some 5#8 := by decide
theorem test_ldVxK :
    see (fun s => (s.wait, s.pc, s.getV 3)) (step (at200 0xF30A [])) = some (.waiting 3, 0x0202#16, 0#8) := by decide
theorem test_rnd_masks_the_draw :
    (rndInto 1 0x0F#8 0xAB#8 State.reset).getV 1 = 0x0B#8 ∧ (rndInto 1 0xFF#8 0xAB#8 State.reset).getV 1 = 0xAB#8 := by
  decide
theorem test_tick :
    see State.timerRead (transact .tick { State.reset with dt := 2#8 }) = some (1#8, 0#8) := by decide
theorem test_resolveKey :
    see (fun s => (s.getV vf, s.wait)) (transact (.resolveKey 0x0A#8) { State.reset with wait := .waiting vf })
      = some (0x0A#8, .idle) := by decide
theorem test_result_codes :
    resultCode (stepWord 0x00E0#16 State.reset) = some 0
    ∧ resultCode (stepWord 0x0123#16 { State.reset with wait := .waiting 3 }) = some 0
    ∧ resultCode (stepWord 0x0123#16 State.reset) = some 1 ∧ resultCode (stepWord 0x8F14#16 State.reset) = some 2
    ∧ resultCode (stepWord 0x2300#16 { State.reset with sp := 16 }) = some 3
    ∧ resultCode (stepWord 0x00EE#16 State.reset) = some 4
    ∧ resultCode (stepWord 0xF429#16 (State.reset.setV 4 0x10#8)) = some 6 := by decide
theorem test_waiting_step_does_nothing :
    see State.fb (stepWord 0x00E0#16 { State.reset with wait := .waiting 3, fb := Vector.replicate 32 1#64 })
      = some (Vector.replicate 32 1#64) := by decide

/-! ## Fetch and cycle (2.7) -/

theorem test_fetch_order : (at200 0x63AB []).mem = [(0x200, 0x63#8), (0x201, 0xAB#8)] := by decide
theorem test_fetch_odd_pc :
    see (fun s => (s.fault, s.pc)) (step { State.reset with pc := 0x0201#16 })
      = some (some .pcOutOfRange, 0x0201#16) := by decide
theorem test_fetch_last_word :
    see (fun s => (s.fault, s.pc)) (step ({ State.reset with pc := 0x0FFE#16 }.withFetchWord 16 0x00E0))
      = some (none, 0x1000#16) := by decide
theorem test_latched_fault_stops :
    faultOf (step { State.reset with fault := some .unknownOpcode }) = some (.faultLatched .unknownOpcode) := by decide
theorem test_boot_runs_the_rom :
    see (fun s => (s.getV 3, s.pc)) (stepsFrom 3 (State.boot Params.default [0x63#8, 0xAB#8]))
      = some (0xAB#8, 0x0202#16) := by decide

/-- The model's order of the loads, where the spec gives none (notes/assumptions/20.md). -/
theorem test_boot_font_over_rom :
    see (fun s => (s.mem, s.pc))
      (stepsFrom 3 (State.boot { Params.default with entryPc := 0x0000#16, fontData := [0xF0#8] } [0x12#8, 0x34#8]))
      = some ([(0, 0xF0#8), (1, 0x34#8)], 0x0000#16) := by decide

/-! ## Witnesses: states and operands that meet the hypotheses of the statements -/

theorem witness_DecodeOfEncodeIsTheInstruction :
    (Instr.sys 0xFFF#12).wellFormed = true ∧ (Instr.drw 15 0 15).wellFormed = true := by decide
theorem witness_EncodeOfDecodeIsTheWord : decode 0x0000#16 = .ok (.sys 0#12) ∧ decode 0xFF65#16 = .ok (.ldVxMem 15) := by
  decide
theorem witness_DecodeFollowsTheOpcodeTable :
    decodesTo 0x1FFF#16 = .ok (.jp 0xFFF#12) ∧ decodesTo 0xFFFF#16 = .error .unknownOpcode
    ∧ (Instr.jp 0#12).row ∈ executingRows ∧ (Instr.jp 0#12).row.accepts 0x1FFF#16 = true := by decide
theorem witness_ClassZeroHoldsOnlyClsAndRet :
    (0x00E0#16).toNat < 0x1000 ∧ (0x00EE#16).toNat < 0x1000
    ∧ ((0x0FFF#16).toNat < 0x1000 ∧ 0x0FFF#16 ≠ 0x00E0#16 ∧ 0x0FFF#16 ≠ 0x00EE#16)
    ∧ ((0x0000#16).toNat < 0x1000 ∧ 0x0000#16 ≠ 0x00E0#16 ∧ 0x0000#16 ≠ 0x00EE#16) := by decide
theorem witness_SysIsUnknownOpcode :
    (0x000#12 ≠ 0x0E0#12 ∧ 0x000#12 ≠ 0x0EE#12) ∧ (0xFFF#12 ≠ 0x0E0#12 ∧ 0xFFF#12 ≠ 0x0EE#12) := by decide
theorem witness_IllegalWordStepsToUnknownOpcode :
    decodesTo 0x0000#16 = .error .unknownOpcode ∧ decodesTo 0x8F18#16 = .error .unknownOpcode
    ∧ State.reset.wait = .idle ∧ (State.reset.setWait (.waiting 0)).wait ≠ .idle := by decide
theorem witness_ResetLeavesTheStatedValues : State.reset = State.resetWith Params.default := by decide

/-- A launch image whose font covers no ROM byte, and images of the greatest length. -/
theorem witness_BootLoadsTheLaunchImage :
    (let p : Params := { Params.default with fontData := [0xF0#8, 0x90#8] }
     [0x12#8].length ≤ 4096 ∧ p.fontData.length ≤ 4096 ∧ 1 < p.fontData.length ∧ 0 < [0x12#8].length
       ∧ ∀ j < p.fontData.length, effAddr p.fontBase j ≠ effAddr p.entryPc 0)
    ∧ (List.replicate 4096 0x12#8).length ≤ 4096 ∧ ([] : List Byte).length ≤ 4096 := by
  refine ⟨by decide, by rw [List.length_replicate], by decide⟩

theorem witness_StepRunsTheDecodedInstruction :
    (let s := at200 0x6305 []
     s.schedule = [] ∧ s.fault = none ∧ s.wait = .idle ∧ fetchable s.pc = true
       ∧ decode s.fetchWord = .ok (.ldImm 3 5#8) ∧ ∃ t, exec (.ldImm 3 5#8) s.advancePc = .next t)
    ∧ (let s := at200 0x00EE []
       s.schedule = [] ∧ s.fault = none ∧ s.wait = .idle ∧ fetchable s.pc = true
         ∧ decode s.fetchWord = .ok .ret ∧ exec .ret s.advancePc = .fault (.raised .stackUnderflow)) :=
  ⟨⟨by decide, by decide, by decide, by decide, by decide, _, rfl⟩,
   by decide, by decide, by decide, by decide, by decide, rfl⟩
theorem witness_FetchIsBigEndian : fetchable 0x0000#16 = true ∧ fetchable 0x0FFE#16 = true := by decide
theorem witness_FetchOutOfRangeLatchesOnly :
    (let s := { State.reset with pc := 0x0001#16 }
     s.schedule = [] ∧ s.fault = none ∧ s.wait = .idle ∧ s.pc.toNat % 2 ≠ 0)
    ∧ (let s := { State.reset with pc := 0x1000#16 }
       s.schedule = [] ∧ s.fault = none ∧ s.wait = .idle ∧ s.pc.toNat > 0xFFE) := by decide
theorem witness_PendingKeyWaitStopsExecution :
    (State.reset.setWait (.waiting 0)).wait = .waiting 0 ∧ (State.reset.setWait (.waiting 15)).wait = .waiting 15 := by
  decide
theorem witness_FaultLatchRule :
    (let s := { State.reset with pc := 0x0FFF#16 }; s.fault = none ∧ s.wait = .idle ∧ fetchable s.pc = false)
    ∧ (State.reset.fault = none ∧ State.reset.wait = .idle ∧ fetchable State.reset.pc = true
      ∧ stepWord State.reset.fetchWord State.reset.advancePc = .fault (.raised .unknownOpcode))
    ∧ (State.reset.latch .unmodelled).fault ≠ none
    ∧ ((State.reset.latch .unmodelled).fault = some .unmodelled
      ∧ ∃ t, transact .tick (State.reset.latch .unmodelled) = .next t) :=
  ⟨by decide, ⟨by decide, by decide, by decide, rfl⟩, by decide, by decide, _, rfl⟩
theorem witness_InstructionRaisesExactlyTheListedErrors :
    errorOf (.sys 0#12) State.reset = some .unknownOpcode ∧ errorOf (.ldReg vf 0) State.reset = some .invalidOperand
    ∧ errorOf .ret State.reset = some .stackUnderflow ∧ errorOf (.call 0#12) State.reset = none
    ∧ errorOf (.call 0#12) { State.reset with sp := 15 } = none
    ∧ errorOf (.call 0#12) { State.reset with sp := 16 } = some .stackOverflow
    ∧ errorOf (.ldF 1) (State.reset.setV 1 15#8) = none
    ∧ errorOf (.ldF 1) (State.reset.setV 1 16#8) = some .unmodelled
    ∧ errorOf (.ldF vf) (allGuarded.setV vf 16#8) = some .invalidOperand := by decide
theorem witness_InstructionWritesOnlyItsDestinations : ∃ t, exec (.ldMemVx 15) State.reset = .next t := ⟨_, rfl⟩
theorem witness_LoadImmediate : bothWays .ldImm = true := by decide
theorem witness_AddImmediateWritesNoFlag : bothWays .addImm = true := by decide
theorem witness_CopyAndLogicGroup :
    bothWays .ldReg = true ∧ bothWays .orReg = true ∧ bothWays .andReg = true ∧ bothWays .xorReg = true := by decide
theorem witness_AddRegistersWithCarry : allGuarded.blocked .addReg vf = true ∧ (0 : Reg) ≠ vf ∧ (14 : Reg) ≠ vf := by decide
theorem witness_SubtractBothWays :
    allGuarded.blocked .sub vf = true ∧ allGuarded.blocked .subn vf = true ∧ (0 : Reg) ≠ vf ∧ (14 : Reg) ≠ vf
    ∧ State.reset.params.borrowMode = .strict := by decide
theorem witness_SubtractUnderNoBorrow :
    (0 : Reg) ≠ vf ∧ (14 : Reg) ≠ vf ∧ (State.resetWith noBorrow).params.borrowMode = .noBorrow := by decide
theorem witness_ShiftsTakeVy :
    allGuarded.blocked .shr vf = true ∧ allGuarded.blocked .shl vf = true ∧ (0 : Reg) ≠ vf ∧ (14 : Reg) ≠ vf := by decide
theorem witness_EightXyGroupRule :
    xOperand (.addReg vf 0) = some (.addReg, vf) ∧ State.reset.params.guards .addReg = true ∧ (14 : Reg) ≠ vf
    ∧ ∀ op ∈ [XOp.addReg, .sub, .shr, .subn, .shl], noneGuarded.params.guards op = false := by decide
theorem witness_SpriteRowIsARotation : (0 : Nat) < 64 ∧ (56 : Nat) < 64 ∧ (57 : Nat) < 64 ∧ (63 : Nat) < 64 := by decide
/-- S4: the row is met by sprite row 0, and a row that no sprite row lands on. -/
theorem witness_DrawXorsRowsAndReducesCollisions :
    bothWays .drw = true
    ∧ (let s := { State.reset with fb := State.reset.fb.set 0 1#64 }
       ((s.getV 1).toNat + 0) % 32 = (0 : Fin 32).val
       ∧ (∀ k < (1 : Fin 16).val, ((s.getV 1).toNat + k) % 32 ≠ (31 : Fin 32).val)
       ∧ s.fbReadRow 0 &&& 1#64 ≠ 0#64 ∧ State.reset.fbReadRow 0 &&& 1#64 = 0#64) := by decide
theorem witness_DrawXorsEachPixelAndFlagsCollision : bothWays .drw = true := by decide
theorem witness_DrawingTwiceErasesTheSprite :
    (0 : Reg) ≠ vf ∧ (14 : Reg) ≠ vf ∧ ∀ r, State.reset.fbReadRow r = 0#64 := by decide
theorem witness_CallPushesTheReturnAddress :
    ({ State.reset with sp := 16 } : State).sp.val = 16 ∧ ({ State.reset with sp := 15 } : State).sp.val ≠ 16
    ∧ State.reset.sp.val ≠ 16 := by decide
theorem witness_ReturnPopsTheReturnAddress :
    State.reset.sp.val = 0 ∧ ({ State.reset with sp := 1 } : State).sp.val = (0 : Fin 16).val + 1
    ∧ ({ State.reset with sp := 16 } : State).sp.val = (15 : Fin 16).val + 1 := by decide
/-- With the saved entry last in the stack, and with a nested call and return that left their entry above SP. -/
theorem witness_ReturnComesBackBehindTheCall :
    (let s := { State.reset with sp := 15 }
     s.sp.val < 16 ∧ ∃ t, exec (.call 0x300#12) s = .next t ∧ (t.setDt 7#8).sp = t.sp
       ∧ (t.setDt 7#8).stack[15] = t.stack[15])
    ∧ (let s := State.reset
       s.sp.val < 16 ∧ ∃ t u w, exec (.call 0x300#12) s = .next t ∧ exec (.call 0x400#12) t = .next u
         ∧ exec .ret u = .next w ∧ w.stack ≠ t.stack ∧ w.sp = t.sp ∧ w.stack[0] = t.stack[0]) :=
  ⟨⟨by decide, _, rfl, rfl, rfl⟩, by decide, _, _, _, rfl, rfl, rfl, by decide, rfl, rfl⟩
theorem witness_SkipsMovePcByOneWidthOrWriteNothing :
    xOperand (.seImm 15 0#8) = some (.seImm, 15) ∧ xOperand (.sknp 0) = some (.sknp, 0)
    ∧ Instr.seImm 15 0#8 ∈ [Instr.seImm 15 0#8, .sneImm 15 0#8, .seReg 15 0, .sneReg 15 0, .skp 15, .sknp 15]
    ∧ bothWays .seImm = true ∧ bothWays .sneImm = true ∧ bothWays .seReg = true ∧ bothWays .sneReg = true
    ∧ bothWays .skp = true ∧ bothWays .sknp = true := by decide
theorem witness_ComparingSkips :
    bothWays .seImm = true ∧ bothWays .sneImm = true ∧ bothWays .seReg = true ∧ bothWays .sneReg = true := by decide
theorem witness_KeySkips :
    bothWays .skp = true ∧ bothWays .sknp = true
    ∧ ((State.reset.getV 1).toNat = (0 : Fin 16).val ∧ State.reset.keypad.getLsbD 0 = false
      ∧ (State.reset.setKeypad 1#16).keypad.getLsbD 0 = true)
    ∧ (((State.reset.setV 1 15#8).getV 1).toNat = (15 : Fin 16).val
      ∧ (State.reset.setKeypad 0x8000#16).keypad.getLsbD 15 = true
      ∧ (State.reset.setKeypad 0x7FFF#16).keypad.getLsbD 15 = false)
    ∧ ((State.reset.setV 1 16#8).getV 1).toNat ≥ 16 := by decide
theorem witness_IndexRegisterWrites :
    bothWays .addI = true ∧ bothWays .ldF = true ∧ ((State.reset.setV 1 15#8).getV 1).toNat ≤ 15
    ∧ ((State.reset.setV 1 16#8).getV 1).toNat > 15 := by decide
theorem witness_BcdStoresThreeDigits :
    bothWays .ldB = true ∧ MemoryCanonical { State.reset with mem := [(0xFFF, 1#8)] } := by
  unfold MemoryCanonical; decide
theorem witness_StoreRegistersFromI :
    bothWays .ldMemVx = true ∧ MemoryCanonical State.reset ∧ (0 : Reg) ≤ 0 ∧ (15 : Reg) ≤ 15 := by
  unfold MemoryCanonical; decide
theorem witness_LoadRegistersFromI : bothWays .ldVxMem = true ∧ (0 : Reg) ≤ 0 ∧ (15 : Reg) ≤ 15 := by decide
theorem witness_StoreThenLoadRestoresRegisters :
    MemoryCanonical State.reset ∧ State.reset.blocked .ldMemVx 15 = false ∧ State.reset.blocked .ldVxMem 15 = false
    ∧ ∃ t, exec (.ldMemVx 15) State.reset = .next t ∧ (t.setV 0 9#8).mem = t.mem ∧ (t.setV 0 9#8).i = t.i
      ∧ (t.setV 0 9#8).params = t.params :=
  ⟨by unfold MemoryCanonical; decide, by decide, by decide, _, rfl, rfl, rfl, rfl⟩
/-- Each store at the last word of memory, its first byte the upper half of the word and its second the lower. -/
theorem witness_StoredBytesAreFetched :
    let s := { (regs State.reset [(0, 0x12#8), (1, 0x34#8)]) with i := 0x0FFE#16 }
    MemoryCanonical s ∧ s.blocked .ldMemVx 1 = false ∧ s.blocked .ldB 1 = false
    ∧ (0 : Reg) ≤ 1 ∧ (1 : Reg) ≤ 1
    ∧ (∃ t, exec (.ldMemVx 1) s = .next t ∧ (t.setPc 0x0FFE#16).mem = t.mem)
    ∧ (∃ t, exec (.ldB 1) s = .next t ∧ (t.setPc 0x0FFE#16).mem = t.mem)
    ∧ (∃ t, transact (.memLoad 0xFFF#12 0x34#8) s = .next t ∧ (t.setPc 0x0FFE#16).mem = t.mem)
    ∧ fetchable 0x0FFE#16 = true ∧ (0x0FFE#16).toNat = effAddr s.i 0 ∧ (0x0FFE#16).toNat + 1 = effAddr s.i 1
    ∧ (0x0FFE#16).toNat + 1 = (0xFFF#12).toNat :=
  ⟨by unfold MemoryCanonical; decide, by decide, by decide, by decide, by decide, ⟨_, rfl, rfl⟩, ⟨_, rfl, rfl⟩,
   ⟨_, rfl, rfl⟩, by decide, by decide, by decide, by decide⟩
theorem witness_TimerInstructions :
    bothWays .ldVxDt = true ∧ bothWays .ldDtVx = true ∧ bothWays .ldStVx = true := by decide
theorem witness_KeyWaitInstructionOnlySetsTheMarker : bothWays .ldVxK = true := by decide
theorem witness_RandomIsTheDrawMaskedByKk : bothWays .rnd = true := by decide
theorem witness_OnlyRandomReadsTheDraw : ∀ x kk, Instr.cls ≠ .rnd x kk := by intro x kk h; cases h
theorem witness_ResolveKeyEndsTheWait :
    (State.reset.setWait (.waiting 15)).wait = .waiting 15 ∧ State.reset.wait = .idle := by decide
theorem witness_PortsWriteOneElement : MemoryCanonical State.reset := by unfold MemoryCanonical; decide
theorem witness_QueuedTransactionsRunInOrder :
    (∃ t, (State.reset.setSchedule [.tick, .cycle]).schedule = .tick :: [.cycle]
      ∧ step (State.reset.setSchedule [.tick, .cycle]) = .next t)
    ∧ State.reset.schedule = [] := ⟨⟨_, rfl, rfl⟩, rfl⟩
theorem witness_PlacedWordIsRunNext :
    (let s := (State.reset.setPc 0x0FFF#16).setWait (.waiting 1)
     MemoryCanonical s ∧ s.withFetchWord 16 0x00E0 = s.withFetchWord 16 (0x00E0#16).toNat) :=
  ⟨by unfold MemoryCanonical; decide, rfl⟩
theorem witness_FramebufferChangesOnlyByDrawAndClear :
    let s := { State.reset with fb := Vector.replicate 32 1#64 }
    ∃ t, transact (.step 0x00E0#16) s = .next t ∧ t.fb ≠ s.fb := ⟨_, rfl, by decide⟩
theorem witness_KeypadIsSetOnlyByItsPort :
    ∃ t, transact (.keypadWrite 0x0080#16) State.reset = .next t ∧ t.keypad ≠ State.reset.keypad := ⟨_, rfl, by decide⟩
theorem witness_WaitStateMachine :
    (∃ t, transact .cycle (at200 0xFF0A []) = .next t ∧ (at200 0xFF0A []).wait = .idle ∧ t.wait = .waiting 15)
    ∧ (∃ t, transact (.resolveKey 0#8) (State.reset.setWait (.waiting 0)) = .next t
      ∧ (State.reset.setWait (.waiting 0)).wait = .waiting 0 ∧ t.wait = .idle)
    ∧ (∃ t, transact .tick (State.reset.setWait (.waiting 0)) = .next t
      ∧ (State.reset.setWait (.waiting 0)).wait = .waiting 0 ∧ t.wait = .waiting 0) :=
  ⟨⟨_, rfl, by decide, by decide⟩, ⟨_, rfl, rfl, rfl⟩, ⟨_, rfl, rfl, rfl⟩⟩
theorem witness_TimersChangeOnlyByTheirWriters :
    let s := { State.reset with dt := 1#8, st := 1#8 }
    ∃ t, transact .tick s = .next t ∧ t.dt ≠ s.dt ∧ t.st ≠ s.st := ⟨_, rfl, by decide, by decide⟩
theorem witness_ParametersNeverChange : ∃ t, step (at200 0x00E0 []) = .next t := ⟨_, rfl⟩
theorem witness_EveryStepKeepsMemoryCanonical :
    MemoryCanonical (at200 0xF533 [(5, 156#8)]) ∧ ∃ t, step (at200 0xF533 [(5, 156#8)]) = .next t :=
  ⟨by unfold MemoryCanonical; decide, _, rfl⟩

/-- Both hypotheses hold before a failing CYCLE, and under a set latch with a tick to come. -/
theorem witness_LatchTellsWhereAndWhyTheRunStopped :
    (LatchTellsFailure (at200 0x00EE []) ∧ (at200 0x00EE []).quiet = true ∧ ∃ t, step (at200 0x00EE []) = .next t)
    ∧ (let s := { State.reset with pc := 0x0FFF#16, fault := some .pcOutOfRange, schedule := [.tick] }
       LatchTellsFailure s ∧ s.quiet = true ∧ ∃ t, step s = .next t) :=
  ⟨⟨trivial, by decide, _, rfl⟩, by unfold LatchTellsFailure; decide, by decide, _, rfl⟩

end Sys2Proof.Tests
end

section
/-! What the fetch reads from memory (R60 to R65). -/

namespace Sys2Proof.Proofs

open Sys2Proof Sys2Proof.Machine

/-- R65. -/
theorem fetchable_iff {pc : Word} : fetchable pc = true ↔ pc.toNat % 2 = 0 ∧ pc.toNat ≤ 0xFFE := by
  simp [fetchable]

theorem readByte_of_lt (s : State) {a : Nat} (h : a < 4096) : s.readByte a = s.mem.read a := by
  rw [State.readByte, Nat.mod_eq_of_lt h]

theorem hiByte_fetchWord (s : State) : hiByte s.fetchWord = s.readByte s.pc.toNat := by
  rw [State.fetchWord, State.wordAt, hiByte_wordOfBytes]

theorem loByte_fetchWord (s : State) : loByte s.fetchWord = s.readByte (s.pc.toNat + 1) := by
  rw [State.fetchWord, State.wordAt, loByte_wordOfBytes]

/-- Settles O11: the fetched word is built from the bytes at PC and PC + 1, and a PC of at most 0xFFE leaves both
addresses below the 4096 bytes of memory, so neither is reduced. -/
theorem fetchIsBigEndian : Obligations.FetchIsBigEndian := by
  intro s hp
  obtain ⟨-, hle⟩ := fetchable_iff.mp hp
  have hHi : s.pc.toNat < 4096 := by omega
  have hLo : s.pc.toNat + 1 < 4096 := by omega
  exact ⟨(hiByte_fetchWord s).trans (readByte_of_lt s hHi), (loByte_fetchWord s).trans (readByte_of_lt s hLo)⟩

end Sys2Proof.Proofs
end

section
/-! What a STEP of an illegal word does (R84, R91, R103). -/

namespace Sys2Proof.Proofs

open Sys2Proof Sys2Proof.Machine

/-- An instruction without an operation is SYS (R92). -/
theorem executes_eq_false_iff {i : Instr} : i.executes = false ↔ ∃ nnn, i = .sys nnn := by
  cases i <;> simp [Instr.executes]

/-- R84's answer is UnknownOpcode for the words of no row and for the words of the SYS row. -/
theorem decodesTo_eq_unknownOpcode_iff {w : Word} :
    decodesTo w = .error .unknownOpcode ↔ decode w = .error .unknownOpcode ∨ ∃ nnn, decode w = .ok (.sys nnn) := by
  cases hd : decode w with
  | error e => simp [decodesTo, hd]
  | ok i => simp [decodesTo, hd, ← executes_eq_false_iff]

theorem exec_sys (nnn : Addr12) (s : State) : exec (.sys nnn) s = .fault (.raised .unknownOpcode) := rfl

/-- R103. -/
theorem stepWord_of_not_idle {s : State} (w : Word) (h : s.wait ≠ .idle) : stepWord w s = .next s := by
  cases hw : s.wait with
  | idle => exact absurd hw h
  | waiting x => simp [stepWord, hw]

/-- R91. -/
theorem stepWord_of_decode_error {w : Word} {s : State} {e : DecodeError} (hw : s.wait = .idle)
    (hd : decode w = .error e) : stepWord w s = .fault (.raised .unknownOpcode) := by
  simp [stepWord, hw, hd, raise]

/-- R100. -/
theorem stepWord_of_decode_ok {w : Word} {s : State} {i : Instr} (hw : s.wait = .idle) (hd : decode w = .ok i) :
    stepWord w s = exec i s := by
  simp [stepWord, hw, hd]

/-- Settles O7: an illegal word is of no row, where the STEP itself raises UnknownOpcode, or of the SYS row, whose
meaning raises it; a key wait is looked at before either. -/
theorem illegalWordStepsToUnknownOpcode : Obligations.IllegalWordStepsToUnknownOpcode := by
  intro w s hIllegal
  refine ⟨fun hw => ?_, stepWord_of_not_idle w⟩
  obtain hNoRow | ⟨nnn, hSys⟩ := decodesTo_eq_unknownOpcode_iff.mp hIllegal
  · exact stepWord_of_decode_error hw hNoRow
  · exact (stepWord_of_decode_ok hw hSys).trans (exec_sys nnn s)

end Sys2Proof.Proofs
end

section
/-! The arithmetic instructions that write a flag (R127 to R132): what is common to them, then each byte operation and
each flag as arithmetic. -/

namespace Sys2Proof.Proofs

open Sys2Proof Sys2Proof.Machine

/-! ## Every checked instruction -/

theorem encode_and_row_mask {i : Instr} (hRow : Laws.EncodesItsRow.Statement i) (hWf : i.wellFormed = true) :
    encode i &&& i.row.mask = i.row.value := by
  simpa [OpRow.accepts] using hRow hWf

/-- A rule begins as R111 says when its word matches its row and its meaning is behind the operand check. -/
theorem ruleHead_of_guarded {i : Instr} {op : XOp} {x : Reg} {byDefault : Bool} {s : State} {r : Res}
    (hRow : Laws.EncodesItsRow.Statement i) (hWf : i.wellFormed = true)
    (hDefault : Params.default.guards op = byDefault) (hExec : exec i s = guarded op x s r) :
    RuleHead i op x i.row.mask i.row.value byDefault s :=
  ⟨encode_and_row_mask hRow hWf, hDefault, fun hBlocked => hExec.trans (guarded_of_block hBlocked)⟩

/-! ## The flag writers -/

section
variable (x y : Reg) (s : State)

theorem exec_addReg : exec (.addReg x y) s =
    guarded .addReg x s (.next (s.setVFlag x (s.getV x + s.getV y) (carryFlag (s.getV x) (s.getV y)))) := rfl

theorem exec_sub : exec (.sub x y) s =
    guarded .sub x s
      (.next (s.setVFlag x (s.getV x - s.getV y) (subFlag s.params.borrowMode (s.getV x) (s.getV y)))) := rfl

theorem exec_shr : exec (.shr x y) s =
    guarded .shr x s (.next (s.setVFlag x (s.getV y >>> 1) (lsbFlag (s.getV y)))) := rfl

theorem exec_subn : exec (.subn x y) s =
    guarded .subn x s
      (.next (s.setVFlag x (s.getV y - s.getV x) (subFlag s.params.borrowMode (s.getV y) (s.getV x)))) := rfl

theorem exec_shl : exec (.shl x y) s =
    guarded .shl x s (.next (s.setVFlag x (s.getV y <<< 1) (msbFlag (s.getV y)))) := rfl

end

/-- With a destination other than VF the operand check passes whatever VF_GUARDED is, and result and flag both stand. -/
theorem flagWriter_completes {i : Instr} {op : XOp} {x : Reg} {b c : Byte} {s : State} (hx : x ≠ vf)
    (hExec : exec i s = guarded op x s (.next (s.setVFlag x b c))) :
    ∃ t, exec i s = .next t ∧ t.getV x = b ∧ t.getV vf = c ∧ Unchanged { regs := [x, vf] } s t :=
  ⟨s.setVFlag x b c, hExec.trans (guarded_of_pass (blocked_of_ne hx)), getV_setVFlag_dest hx, getV_setVFlag_vf,
    unchanged_setVFlag x b c⟩

/-! ## Results and flags as arithmetic -/

/-- R133: the difference of two bytes, with 256 lent so that it is a natural number. -/
theorem toNat_byte_sub (a b : Byte) : (a - b).toNat = (a.toNat + 256 - b.toNat) % 256 := by
  have hb := b.isLt
  rw [BitVec.toNat_sub]
  omega

theorem toNat_byte_shiftRight_one (b : Byte) : (b >>> 1).toNat = b.toNat / 2 := by
  rw [BitVec.toNat_ushiftRight, Nat.shiftRight_eq_div_pow, pow_one]

theorem toNat_byte_shiftLeft_one (b : Byte) : (b <<< 1).toNat = 2 * b.toNat % 256 := by
  rw [BitVec.toNat_shiftLeft, Nat.shiftLeft_eq, pow_one, Nat.mul_comm]

theorem carryFlag_eq (a b : Byte) : carryFlag a b = if a.toNat + b.toNat > 255 then 1#8 else 0#8 := by
  simp [carryFlag, flagByte]

/-- R129: the STRICT flag compares the operands, which is the sign of their true difference. -/
theorem subFlag_strict_eq (a b : Byte) :
    subFlag .strict a b = if (a.toNat : Int) - b.toNat > 0 then 1#8 else 0#8 := by
  have hSign : (a.toNat : Int) - b.toNat > 0 ↔ a.toNat > b.toNat := by omega
  simp only [subFlag, flagByte, decide_eq_true_eq, hSign]

theorem toNat_lsbFlag (b : Byte) : (lsbFlag b).toNat = b.toNat % 2 := by
  rw [lsbFlag, BitVec.toNat_and]
  exact Nat.and_one_is_mod _

theorem toNat_msbFlag (b : Byte) : (msbFlag b).toNat = b.toNat / 128 := by
  have hb := b.isLt
  have hBit : (msbFlag b).toNat = b.toNat / 128 % 2 := by
    rw [msbFlag, BitVec.toNat_and, BitVec.toNat_ushiftRight, Nat.shiftRight_eq_div_pow]
    exact Nat.and_one_is_mod _
  omega

/-! ## The obligations -/

/-- R128 and R131 are one rule, with `a` the minuend. -/
theorem strict_subtraction_completes {i : Instr} {op : XOp} {x : Reg} {a b : Byte} {s : State} (hx : x ≠ vf)
    (hMode : s.params.borrowMode = .strict)
    (hExec : exec i s = guarded op x s (.next (s.setVFlag x (a - b) (subFlag s.params.borrowMode a b)))) :
    ∃ t, exec i s = .next t ∧ (t.getV x).toNat = (a.toNat + 256 - b.toNat) % 256
      ∧ t.getV vf = (if (a.toNat : Int) - b.toNat > 0 then 1#8 else 0#8) ∧ Unchanged { regs := [x, vf] } s t := by
  rw [hMode] at hExec
  obtain ⟨t, hRun, hResult, hFlag, hFrame⟩ := flagWriter_completes hx hExec
  exact ⟨t, hRun, by rw [hResult, toNat_byte_sub], by rw [hFlag, subFlag_strict_eq], hFrame⟩

/-- Settles O21: both instructions are the one subtraction, with the operands exchanged. -/
theorem subtractBothWays : Obligations.SubtractBothWays := by
  refine ⟨rfl, fun x y s => ⟨?_, ?_, fun hx hMode => ⟨?_, ?_⟩⟩⟩
  · exact ruleHead_of_guarded (Laws.EncodesItsRow.sub x y) rfl rfl (exec_sub x y s)
  · exact ruleHead_of_guarded (Laws.EncodesItsRow.subn x y) rfl rfl (exec_subn x y s)
  · exact strict_subtraction_completes hx hMode (exec_sub x y s)
  · exact strict_subtraction_completes hx hMode (exec_subn x y s)

/-- Settles O20: the byte sum is the sum modulo 256, and the flag is computed from the sum before truncation. -/
theorem addRegistersWithCarry : Obligations.AddRegistersWithCarry := by
  refine fun x y s => ⟨?_, fun hx => ?_⟩
  · exact ruleHead_of_guarded (Laws.EncodesItsRow.addReg x y) rfl rfl (exec_addReg x y s)
  · obtain ⟨t, hRun, hResult, hFlag, hFrame⟩ := flagWriter_completes hx (exec_addReg x y s)
    exact ⟨t, hRun, by rw [hResult, BitVec.toNat_add], by rw [hFlag, carryFlag_eq], hFrame⟩

/-- Settles O23: a shift by one halves or doubles Vy, and the flag is the digit that the shift drops. -/
theorem shiftsTakeVy : Obligations.ShiftsTakeVy := by
  refine fun x y s => ⟨?_, ?_, fun hx => ⟨?_, ?_⟩⟩
  · exact ruleHead_of_guarded (Laws.EncodesItsRow.shr x y) rfl rfl (exec_shr x y s)
  · exact ruleHead_of_guarded (Laws.EncodesItsRow.shl x y) rfl rfl (exec_shl x y s)
  · obtain ⟨t, hRun, hResult, hFlag, hFrame⟩ := flagWriter_completes hx (exec_shr x y s)
    exact ⟨t, hRun, by rw [hResult, toNat_byte_shiftRight_one], by rw [hFlag, toNat_lsbFlag], hFrame⟩
  · obtain ⟨t, hRun, hResult, hFlag, hFrame⟩ := flagWriter_completes hx (exec_shl x y s)
    exact ⟨t, hRun, by rw [hResult, toNat_byte_shiftLeft_one], by rw [hFlag, toNat_msbFlag], hFrame⟩

end Sys2Proof.Proofs
end

section
/-! The sprite draw row by row (R140 to R145): the mask of a sprite row as a shift, the state that a draw completes in,
then its framebuffer rows, its collision flag and what it leaves unchanged. -/

namespace Sys2Proof.Proofs

open Sys2Proof Sys2Proof.Machine

/-! ## The mask of a sprite row -/

/-- R141, R142: the shift amount `56 - col` as an integer, whose negative values wrap around the right edge. -/
theorem spriteRow_eq_shift (b : Byte) (col : Nat) :
    spriteRow b col =
      let sh : Int := 56 - col
      if sh ≥ 0 then b.setWidth 64 <<< sh.toNat
      else (b.setWidth 64 >>> (-sh).toNat) ||| (b.setWidth 64 <<< (64 + sh).toNat) := by
  by_cases hFits : col ≤ 56
  · have hSign : (56 : Int) - col ≥ 0 := by omega
    have hShift : ((56 : Int) - col).toNat = 56 - col := by omega
    simp only [spriteRow, if_pos hFits, if_pos hSign, hShift]
  · have hSign : ¬ (56 : Int) - col ≥ 0 := by omega
    have hRight : (-((56 : Int) - col)).toNat = col - 56 := by omega
    have hLeft : (64 + ((56 : Int) - col)).toNat = 120 - col := by omega
    simp only [spriteRow, if_neg hFits, if_neg hSign, hRight, hLeft]

section
variable (x y : Reg) (n : Fin 16) (s : State)

theorem spriteMask_eq_shift (k : Nat) :
    s.spriteMask x k =
      let b : Row := (s.mem.read ((s.i.toNat + k) % 4096)).setWidth 64
      let sh : Int := 56 - ((s.getV x).toNat % 64 : Nat)
      if sh ≥ 0 then b <<< sh.toNat else (b >>> (-sh).toNat) ||| (b <<< (64 + sh).toNat) := by
  have hAddr : effAddr s.i k < 4096 := Nat.mod_lt _ (by decide)
  rw [State.spriteMask, readByte_of_lt s hAddr]
  exact spriteRow_eq_shift _ _

/-! ## The state after a draw -/

/-- The state that Dxyn completes in, where the operand check lets it run. -/
def drawn : State :=
  (s.setFb (s.drawRows x y n.val).1).setV vf (collisionFlag (s.drawRows x y n.val).2)

theorem exec_drw : exec (.drw x y n) s = guarded .drw x s (.next (drawn x y n s)) := rfl

theorem unchanged_drawn : Unchanged { regs := [vf], fb := true } s (drawn x y n s) := by
  refine ⟨fun r hr => ?_, ?_⟩
  · exact (getV_setV_of_ne (by simpa using hr)).trans (getV_congr (setFb_v s _) r)
  · simp [drawn, State.readByte]

end

variable {x y : Reg} {n : Fin 16} {s : State}

/-- R143: a framebuffer row that a sprite row lands on is XORed with its mask. -/
theorem fbReadRow_drawn_of_target {k : Nat} {r : Fin 32} (hk : k < n.val)
    (hRow : ((s.getV y).toNat + k) % 32 = r.val) :
    (drawn x y n s).fbReadRow r = s.fbReadRow r ^^^ s.spriteMask x k :=
  (drawRows_row (by omega) r).1 k hk (Fin.ext hRow)

/-- R143: a framebuffer row that no sprite row lands on is as before. -/
theorem fbReadRow_drawn_of_not_target {r : Fin 32} (hRow : ∀ k < n.val, ((s.getV y).toNat + k) % 32 ≠ r.val) :
    (drawn x y n s).fbReadRow r = s.fbReadRow r :=
  (drawRows_row (by omega) r).2 fun k hk hEq => hRow k hk (congrArg Fin.val hEq)

theorem collisionFlag_eq (c : Row) : collisionFlag c = if c ≠ 0#64 then 1#8 else 0#8 := by
  simp [collisionFlag, flagByte]

/-- R143, R144: VF is 1 if a target row had a set bit in common with the mask drawn over it. -/
theorem getV_vf_drawn_of_collision
    (h : ∃ k < n.val, s.fbReadRow (s.targetRow y k) &&& s.spriteMask x k ≠ 0#64) :
    (drawn x y n s).getV vf = 1#8 := by
  rw [drawn, getV_setV_self, collisionFlag_eq, if_pos (drawRows_collision.mpr h)]

/-- R143, R144: VF is 0 if every target row was clear where its mask is set. -/
theorem getV_vf_drawn_of_no_collision
    (h : ∀ k < n.val, s.fbReadRow (s.targetRow y k) &&& s.spriteMask x k = 0#64) :
    (drawn x y n s).getV vf = 0#8 := by
  have hNone : ¬ (s.drawRows x y n.val).2 ≠ 0#64 := by
    rw [drawRows_collision]
    exact fun ⟨k, hk, hBit⟩ => hBit (h k hk)
  rw [drawn, getV_setV_self, collisionFlag_eq, if_neg hNone]

/-! ## The obligation -/

/-- Settles O26: the shifted bytes of the rule are the masks of the model, no two rows of a draw land on one row, and
the collision bits of all rows are nonzero exactly when those of some row are. -/
theorem drawXorsRowsAndReducesCollisions : Obligations.DrawXorsRowsAndReducesCollisions := by
  refine fun x y n s => ⟨?_, fun hPass rowMask hMask => ?_⟩
  · exact ruleHead_of_guarded (Laws.EncodesItsRow.drw x y n) rfl rfl (exec_drw x y n s)
  · obtain rfl : rowMask = s.spriteMask x := funext fun k => (hMask k).trans (spriteMask_eq_shift x s k).symm
    refine ⟨drawn x y n s, (exec_drw x y n s).trans (guarded_of_pass hPass), fun r => ⟨?_, ?_⟩, ?_, ?_,
      unchanged_drawn x y n s⟩
    · exact fun k hk hRow => fbReadRow_drawn_of_target hk hRow
    · exact fbReadRow_drawn_of_not_target
    · rintro ⟨k, hk, r, hRow, hBit⟩
      obtain rfl : r = s.targetRow y k := Fin.ext hRow
      exact getV_vf_drawn_of_collision ⟨k, hk, hBit⟩
    · exact fun hClear => getV_vf_drawn_of_no_collision fun k hk => hClear k hk (s.targetRow y k) rfl

end Sys2Proof.Proofs
end

section
/-! Jump, call and return (R160 to R163): what the two moves of the stack pointer leave unchanged, each outcome of the
three instructions, then the obligations. -/

namespace Sys2Proof.Proofs

open Sys2Proof Sys2Proof.Machine

/-! ## The stack operations -/

section
variable {s : State}

theorem unchanged_push (w : Word) (h : s.sp.val < 16) : Unchanged { stack := true } s (s.push w h) := by
  simp [Unchanged, State.getV, State.readByte]

theorem unchanged_pop : Unchanged { stack := true } s s.pop := by
  simp [Unchanged, State.getV, State.readByte]

/-- A jump after a stack operation adds PC to what is written, and nothing else. -/
theorem unchanged_setPc_of_stack {t : State} (h : Unchanged { stack := true } s t) (w : Word) :
    Unchanged { stack := true, pc := true } s (t.setPc w) := by
  obtain ⟨hRegs, hMem, hIndex, -, hRest⟩ := h
  exact ⟨hRegs, hMem, hIndex, nofun, hRest⟩

/-- R162: the entry at the old SP is the address pushed, the other fifteen are as before. -/
theorem getElem_push_stack (w : Word) (h : s.sp.val < 16) (k : Fin 16) :
    (s.push w h).stack[k.val] = if k.val = s.sp.val then w else s.stack[k.val] := by
  simp only [push_stack, Vector.getElem_set, eq_comm]

/-- R163: the popped address is the entry below SP. -/
theorem top_of_sp_eq {k : Fin 16} (hSp : s.sp.val = k.val + 1) (h : 0 < s.sp.val) : s.top h = s.stack[k.val] := by
  simp [State.top, hSp]

end

/-- R83. -/
theorem toNat_zextAddr (nnn : Addr12) : (zextAddr nnn).toNat = nnn.toNat :=
  BitVec.toNat_setWidth_of_le (by decide)

/-! ## The outcomes -/

section
variable {s : State}

theorem exec_jp (nnn : Addr12) : exec (.jp nnn) s = .next (s.setPc (zextAddr nnn)) := rfl

theorem exec_call_of_lt (nnn : Addr12) (h : s.sp.val < 16) :
    exec (.call nnn) s = .next ((s.push s.pc h).setPc (zextAddr nnn)) := dif_pos h

theorem exec_call_of_full (nnn : Addr12) (h : s.sp.val = 16) :
    exec (.call nnn) s = .fault (.raised .stackOverflow) := dif_neg (by omega)

theorem exec_ret_of_pos (h : 0 < s.sp.val) : exec .ret s = .next (s.pop.setPc (s.top h)) := dif_pos h

theorem exec_ret_of_empty (h : s.sp.val = 0) : exec .ret s = .fault (.raised .stackUnderflow) := dif_neg (by omega)

end

/-! ## The obligations -/

/-- Settles O30: the target is zero-extended, so PC is its number, and the jump is one write of PC. -/
theorem jumpSetsPc : Obligations.JumpSetsPc := by
  intro nnn s
  exact ⟨encode_and_row_mask (Laws.EncodesItsRow.jp nnn) rfl, _, exec_jp nnn, toNat_zextAddr nnn, unchanged_setPc _⟩

/-- Settles O32: SP is at most 16, so a stack that is not full has a place for PC; the call is then a push and a
jump. -/
theorem callPushesTheReturnAddress : Obligations.CallPushesTheReturnAddress := by
  intro nnn s
  refine ⟨encode_and_row_mask (Laws.EncodesItsRow.call nnn) rfl, exec_call_of_full nnn, fun hNotFull => ?_⟩
  have hPlace : s.sp.val < 16 := by omega
  exact ⟨_, exec_call_of_lt nnn hPlace, push_sp s s.pc hPlace, toNat_zextAddr nnn, getElem_push_stack s.pc hPlace,
    unchanged_setPc_of_stack (unchanged_push s.pc hPlace) _⟩

/-- Settles O33: a stack that holds an address gives its top entry to PC and keeps all entries; only SP moves. -/
theorem returnPopsTheReturnAddress : Obligations.ReturnPopsTheReturnAddress := by
  intro s
  refine ⟨rfl, exec_ret_of_empty, fun k hSp => ?_⟩
  have hHeld : 0 < s.sp.val := by omega
  have hSpAfter : s.pop.sp.val = k.val := by rw [pop_sp, hSp, Nat.add_sub_cancel]
  exact ⟨_, exec_ret_of_pos hHeld, hSpAfter, top_of_sp_eq hSp hHeld, pop_stack s,
    unchanged_setPc_of_stack unchanged_pop _⟩

end Sys2Proof.Proofs
end

section
/-! The memory instructions (R194 to R197): the state that each one completes in, what a store of decimal digits or of
registers leaves at each address, then the obligations. -/

namespace Sys2Proof.Proofs

open Sys2Proof Sys2Proof.Machine

section
variable (x : Reg) (s : State)

theorem exec_ldB :
    exec (.ldB x) s = guarded .ldB x s (.next (s.storeBytes s.i (bcdDigits (s.getV x)))) := rfl

theorem exec_ldMemVx :
    exec (.ldMemVx x) s = guarded .ldMemVx x s (.next (s.storeBytes s.i (s.regsTo x))) := rfl

theorem exec_ldVxMem : exec (.ldVxMem x) s = guarded .ldVxMem x s (.next (s.loadRegs x)) := rfl

end

variable {x : Reg} {s : State}

/-- A number below 256 is a byte, so where a store writes it, it reads back uncut. -/
theorem toNat_readByte_storeBytes {base : Word} {bs : List Byte} {j n : Nat} (hMem : MemoryCanonical s)
    (hLength : bs.length ≤ 4096) (hj : j < bs.length) (hn : n < 256) (hStored : bs[j] = BitVec.ofNat 8 n) :
    ((s.storeBytes base bs).readByte (effAddr base j)).toNat = n := by
  rw [readByte_storeBytes hMem hj hLength, hStored, BitVec.toNat_ofNat]
  exact Nat.mod_eq_of_lt hn

/-- R194: the three addresses of the store hold the three digits, each of which is below 256. -/
theorem toNat_readByte_store_bcdDigits (base : Word) (b : Byte) (hMem : MemoryCanonical s) :
    let t := s.storeBytes base (bcdDigits b)
    (t.readByte (effAddr base 0)).toNat = b.toNat / 100
      ∧ (t.readByte (effAddr base 1)).toNat = b.toNat / 10 % 10
      ∧ (t.readByte (effAddr base 2)).toNat = b.toNat % 10 := by
  have hByte := b.isLt
  have hLength : (bcdDigits b).length = 3 := rfl
  refine ⟨?_, ?_, ?_⟩
  · exact toNat_readByte_storeBytes hMem (by omega) (by omega) (by omega) rfl
  · exact toNat_readByte_storeBytes hMem (by omega) (by omega) (by omega) rfl
  · exact toNat_readByte_storeBytes hMem (by omega) (by omega) (by omega) rfl

/-- R196: byte `k` of the store holds register `k`. -/
theorem readByte_store_regsTo (base : Word) {k : Reg} (hMem : MemoryCanonical s) (hk : k ≤ x) :
    (s.storeBytes base (s.regsTo x)).readByte (effAddr base k.val) = s.getV k := by
  have hOrder : k.val ≤ x.val := hk
  have hLength : (s.regsTo x).length = x.val + 1 := regsTo_length
  have hStored : k.val < (s.regsTo x).length := by omega
  rw [readByte_storeBytes hMem hStored (by omega), regsTo_get hStored]

/-- R195: the store of V0..Vx changes no more than its x + 1 bytes. -/
theorem unchanged_store_regsTo (base : Word) :
    Unchanged { mem := (List.range (x.val + 1)).map (effAddr base) } s (s.storeBytes base (s.regsTo x)) := by
  have hFrame := unchanged_storeBytes (s := s) base (s.regsTo x)
  rwa [regsTo_length] at hFrame

/-! ## The obligations -/

/-- Settles O40: the store reaches no more than sixteen addresses, all distinct, so each register reads back from its
own. -/
theorem storeRegistersFromI : Obligations.StoreRegistersFromI := by
  intro x s
  refine ⟨ruleHead_of_guarded (Laws.EncodesItsRow.ldMemVx x) rfl rfl (exec_ldMemVx x s), fun hMem hPass => ?_⟩
  exact ⟨_, (exec_ldMemVx x s).trans (guarded_of_pass hPass), fun _ hk => readByte_store_regsTo s.i hMem hk,
    unchanged_store_regsTo s.i⟩

/-- Settles O39: the store is one of three bytes, the digits of Vx. -/
theorem bcdStoresThreeDigits : Obligations.BcdStoresThreeDigits := by
  intro x s
  refine ⟨ruleHead_of_guarded (Laws.EncodesItsRow.ldB x) rfl rfl (exec_ldB x s), fun hMem hPass => ?_⟩
  obtain ⟨hHundreds, hTens, hOnes⟩ := toNat_readByte_store_bcdDigits s.i (s.getV x) hMem
  exact ⟨_, (exec_ldB x s).trans (guarded_of_pass hPass), hHundreds, hTens, hOnes,
    unchanged_storeBytes s.i (bcdDigits (s.getV x))⟩

/-- Settles O41: the load replaces exactly the registers up to x, each by a byte of the memory before it. -/
theorem loadRegistersFromI : Obligations.LoadRegistersFromI := by
  intro x s
  refine ⟨ruleHead_of_guarded (Laws.EncodesItsRow.ldVxMem x) rfl rfl (exec_ldVxMem x s), fun hPass => ?_⟩
  exact ⟨_, (exec_ldVxMem x s).trans (guarded_of_pass hPass), fun k hk => by rw [getV_loadRegs, if_pos hk],
    unchanged_loadRegs x⟩

end Sys2Proof.Proofs
end

section
/-! The key wait (R213 to R215): what each instruction, each STEP, each CYCLE and each transaction can do to the marker,
said once for each, then the obligations. -/

namespace Sys2Proof.Proofs

open Sys2Proof Sys2Proof.Machine

variable {s t : State}

/-! ## Instructions -/

theorem exec_ldVxK (x : Reg) (s : State) :
    exec (.ldVxK x) s = guarded .ldVxK x s (.next (s.setWait (.waiting x))) := rfl

theorem skipIf_wait (c : Bool) : (s.skipIf c).wait = s.wait := by
  rw [skipIf_eq, setPc_wait]

/-- A checked instruction keeps the marker if the state it completes in does. -/
theorem wait_of_guarded_next {op : XOp} {x : Reg} {u : State} (h : guarded op x s (.next u) = .next t)
    (hKeeps : u.wait = s.wait) : t.wait = s.wait := by
  obtain ⟨-, hRule⟩ := guarded_next h
  cases hRule
  exact hKeeps

/-- Fx0A is the one instruction that writes the marker. -/
theorem exec_next_wait {i : Instr} (h : exec i s = .next t) :
    t.wait = s.wait ∨ ∃ x, i = .ldVxK x ∧ t.wait = .waiting x := by
  cases i with
  | ldVxK x =>
    obtain ⟨-, hRule⟩ := guarded_next h
    cases hRule
    exact .inr ⟨x, rfl, rfl⟩
  | sys => cases h
  | cls | jp | jpV0 | ldI =>
    cases h
    exact .inl rfl
  | call nnn =>
    by_cases hPlace : s.sp.val < 16
    · cases (exec_call_of_lt nnn hPlace).symm.trans h
      exact .inl rfl
    · cases (exec_call_of_full nnn (by omega)).symm.trans h
  | ret =>
    by_cases hHeld : 0 < s.sp.val
    · cases (exec_ret_of_pos hHeld).symm.trans h
      exact .inl rfl
    · cases (exec_ret_of_empty (by omega)).symm.trans h
  | ldF x =>
    obtain ⟨-, hRule⟩ := guarded_next h
    split at hRule
    · cases hRule
    · cases hRule
      exact .inl rfl
  | seImm | sneImm | seReg | sneReg | skp | sknp => exact .inl (wait_of_guarded_next h (skipIf_wait _))
  | ldImm | addImm | ldReg | orReg | andReg | xorReg | addReg | sub | shr | subn | shl | rnd | drw | ldVxDt | ldDtVx
  | ldStVx | addI | ldB | ldMemVx | ldVxMem => exact .inl (wait_of_guarded_next h rfl)

/-! ## Transactions -/

/-- A STEP keeps the marker, or is an Fx0A that meets it Idle. -/
theorem stepWord_next_wait {w : Word} (h : stepWord w s = .next t) :
    t.wait = s.wait ∨ s.wait = .idle ∧ ∃ x, decode w = .ok (.ldVxK x) ∧ t.wait = .waiting x := by
  obtain ⟨-, rfl⟩ | ⟨hIdle, i, hDecode, hExec⟩ := stepWord_next h
  · exact .inl rfl
  · obtain hKept | ⟨x, rfl, hSet⟩ := exec_next_wait hExec
    · exact .inl hKept
    · exact .inr ⟨hIdle, x, hDecode, hSet⟩

/-- A CYCLE does to the marker what the STEP of the fetched word does: neither the fetch nor the latch touches it. -/
theorem cycle_next_wait (h : cycle s = .next t) :
    t.wait = s.wait ∨ s.wait = .idle ∧ ∃ x, decode s.fetchWord = .ok (.ldVxK x) ∧ t.wait = .waiting x := by
  obtain ⟨-, -, ⟨-, rfl⟩ | ⟨-, hRun⟩ | ⟨e, -, -, rfl⟩⟩ := cycle_next h
  · exact .inl rfl
  · simpa only [advancePc_wait] using stepWord_next_wait hRun
  · exact .inl rfl

theorem resolveKey_wait (key : Byte) : (s.resolveKey key).wait = .idle := by
  cases hWait : s.wait <;> simp [State.resolveKey, hWait]

theorem timerWrite_wait (sel : TimerSel) (b : Byte) : (s.timerWrite sel b).wait = s.wait := by
  cases sel <;> rfl

/-- R214, all that a transaction can do to the marker: keep it, set it by Fx0A when it is Idle, clear it by
RESOLVE_KEY. -/
theorem transact_next_wait {m : HostMove} (h : transact m s = .next t) :
    t.wait = s.wait
    ∨ (s.wait = .idle ∧ ∃ x w, (m = .cycle ∧ w = s.fetchWord ∨ m = .step w) ∧ decode w = .ok (.ldVxK x)
        ∧ t.wait = .waiting x)
    ∨ ((∃ key, m = .resolveKey key) ∧ t.wait = .idle) := by
  cases m with
  | cycle =>
    obtain hKept | ⟨hIdle, x, hDecode, hSet⟩ := cycle_next_wait h
    · exact .inl hKept
    · exact .inr (.inl ⟨hIdle, x, _, .inl ⟨rfl, rfl⟩, hDecode, hSet⟩)
  | step w =>
    obtain hKept | ⟨hIdle, x, hDecode, hSet⟩ := stepWord_next_wait h
    · exact .inl hKept
    · exact .inr (.inl ⟨hIdle, x, w, .inr rfl, hDecode, hSet⟩)
  | resolveKey key =>
    cases h
    exact .inr (.inr ⟨⟨key, rfl⟩, resolveKey_wait key⟩)
  | timerWrite sel b =>
    cases h
    exact .inl (timerWrite_wait sel b)
  | tick | keypadWrite | memLoad | fbRead | timerRead | statusRead =>
    cases h
    exact .inl rfl

/-- R214: ticks, keypad writes and the reads of the framebuffer and the status complete in every state and keep the
marker. -/
theorem transact_completes_keeping_wait {m : HostMove}
    (h : m ∈ [HostMove.tick, .fbRead, .statusRead] ∨ ∃ mask, m = .keypadWrite mask) :
    ∃ t, transact m s = .next t ∧ t.wait = s.wait := by
  simp only [List.mem_cons, List.not_mem_nil, or_false] at h
  obtain (rfl | rfl | rfl) | ⟨mask, rfl⟩ := h
  · exact ⟨s.tick, rfl, rfl⟩
  · exact ⟨s, rfl, rfl⟩
  · exact ⟨s, rfl, rfl⟩
  · exact ⟨s.keypadWrite mask, rfl, rfl⟩

/-! ## The obligations -/

/-- Settles O55: a transaction keeps the marker, sets it or clears it, and each change of the marker fits only one of the
three. -/
theorem waitStateMachine : Obligations.WaitStateMachine := by
  refine ⟨fun m s t hRun => ?_, fun s r hWait => ?_⟩
  · obtain hKept | ⟨hIdle, y, w, hWord, hDecode, hSet⟩ | ⟨hResolve, hCleared⟩ := transact_next_wait hRun
    · rw [hKept]
      refine ⟨fun x hFrom hTo => ?_, fun r hFrom hTo => ?_, fun r x hFrom hTo => ?_⟩
      · cases hFrom.symm.trans hTo
      · cases hFrom.symm.trans hTo
      · cases hFrom.symm.trans hTo
        rfl
    · rw [hIdle, hSet]
      refine ⟨fun x _ hTo => ?_, nofun, nofun⟩
      cases hTo
      exact ⟨w, hWord, hDecode⟩
    · rw [hCleared]
      exact ⟨nofun, fun _ _ _ => hResolve, nofun⟩
  · have hNotIdle : s.wait ≠ .idle := by simp [hWait]
    refine ⟨fun w => stepWord_of_not_idle w hNotIdle, fun t => cycle_held (.inr hNotIdle), fun m hm => ?_⟩
    rw [← hWait]
    exact transact_completes_keeping_wait hm

/-- Settles O45: where the operand check passes, Fx0A is the one write of the marker. -/
theorem keyWaitInstructionOnlySetsTheMarker : Obligations.KeyWaitInstructionOnlySetsTheMarker := by
  intro x s
  refine ⟨ruleHead_of_guarded (Laws.EncodesItsRow.ldVxK x) rfl rfl (exec_ldVxK x s), fun hPass => ?_⟩
  exact ⟨_, (exec_ldVxK x s).trans (guarded_of_pass hPass), setWait_wait s _, unchanged_setWait _⟩

end Sys2Proof.Proofs
end

section
/-! Encoding and decode (R81 to R94): the decoder on the word of each instruction, a word rebuilt from its fields, the
rows of the opcode table, then the obligations. -/

namespace Sys2Proof.Proofs

open Sys2Proof

/-! ## The decoder on an encoded instruction -/

/-- R85: a SYS address other than the two spelled by CLS and RET gives the word of neither. -/
theorem decode_encode_sys {nnn : Addr12} (hCls : nnn ≠ 0x0E0#12) (hRet : nnn ≠ 0x0EE#12) :
    decode (encode (.sys nnn)) = .ok (.sys nnn) := by
  have hNotCls : encAddr 0#4 nnn ≠ 0x00E0#16 := fun h => hCls ((fieldNnn_encAddr _ _).symm.trans (congrArg fieldNnn h))
  have hNotRet : encAddr 0#4 nnn ≠ 0x00EE#16 := fun h => hRet ((fieldNnn_encAddr _ _).symm.trans (congrArg fieldNnn h))
  simp [decode, encode, decodeClass0, hNotCls, hNotRet]

/-- Every field of the word reads back, and those that select the row select the instruction's own. -/
theorem decode_encode {i : Instr} (hWf : i.wellFormed = true) : decode (encode i) = .ok i := by
  cases i with
  | sys nnn =>
    obtain ⟨hCls, hRet⟩ : nnn ≠ 0x0E0#12 ∧ nnn ≠ 0x0EE#12 := by simpa [Instr.wellFormed] using hWf
    exact decode_encode_sys hCls hRet
  | cls | ret => rfl
  | jp | call | ldI | jpV0 => simp [encode, decode]
  | seImm | sneImm | ldImm | addImm | rnd => simp [encode, decode]
  | seReg | sneReg | drw => simp [encode, decode]
  | ldReg | orReg | andReg | xorReg | addReg | sub | shr | subn | shl => simp [encode, decode, decodeClass8]
  | skp | sknp => simp [encode, decode, decodeClassE]
  | ldVxDt | ldVxK | ldDtVx | ldStVx | addI | ldF | ldB | ldMemVx | ldVxMem => simp [encode, decode, decodeClassF]

/-! ## A word rebuilt from its fields (R81, R82) -/

section
variable {w : Word} {c : BitVec 4}

/-- The fields of a word meet without a gap. -/
theorem class_append_nnn (w : Word) : encAddr (opClass w) (fieldNnn w) = w :=
  (BitVec.extractLsb'_append_extractLsb'_eq_extractLsb' rfl).trans BitVec.extractLsb'_eq_self

theorem x_append_kk (w : Word) : nibble (fieldX w) ++ fieldKk w = fieldNnn w :=
  BitVec.extractLsb'_append_extractLsb'_eq_extractLsb' rfl

theorem y_append_n (w : Word) : nibble (fieldY w) ++ nibble (fieldN w) = fieldKk w :=
  BitVec.extractLsb'_append_extractLsb'_eq_extractLsb' rfl

theorem encAddr_fields (hClass : (opClass w).toNat = c.toNat) : encAddr c (fieldNnn w) = w := by
  rw [← BitVec.eq_of_toNat_eq hClass, class_append_nnn]

theorem encXkk_fields {kk : Byte} (hClass : (opClass w).toNat = c.toNat) (hKk : (fieldKk w).toNat = kk.toNat) :
    encXkk c (fieldX w) kk = w := by
  rw [← BitVec.eq_of_toNat_eq hKk, encXkk, x_append_kk]
  exact encAddr_fields hClass

theorem encXyn_fields {n : Fin 16} (hClass : (opClass w).toNat = c.toNat) (hN : (fieldN w).val = n.val) :
    encXyn c (fieldX w) (fieldY w) n = w := by
  rw [← Fin.ext hN, encXyn, y_append_n, x_append_kk]
  exact encAddr_fields hClass

end

/-- A word of class 0 that decodes spells CLS, RET, or a SYS address that neither of them has. -/
theorem encode_of_decodeClass0 {w : Word} {i : Instr} (hClass : (opClass w).toNat = 0)
    (h : decodeClass0 w = .ok i) : i.wellFormed = true ∧ encode i = w := by
  unfold decodeClass0 at h
  split_ifs at h with hCls hRet
  · cases h
    exact ⟨rfl, hCls.symm⟩
  · cases h
    exact ⟨rfl, hRet.symm⟩
  · cases h
    have hWord : encAddr 0x0 (fieldNnn w) = w := encAddr_fields hClass
    have hNotCls : fieldNnn w ≠ 0x0E0#12 := fun hNnn => hCls (by rw [← hWord, hNnn]; rfl)
    have hNotRet : fieldNnn w ≠ 0x0EE#12 := fun hNnn => hRet (by rw [← hWord, hNnn]; rfl)
    exact ⟨by simp [Instr.wellFormed, hNotCls, hNotRet], hWord⟩

/-- R86. -/
theorem encode_of_decodeClass8 {w : Word} {i : Instr} (hClass : (opClass w).toNat = 8)
    (h : decodeClass8 w = .ok i) : i.wellFormed = true ∧ encode i = w := by
  unfold decodeClass8 at h
  split at h <;> cases h <;> exact ⟨rfl, encXyn_fields hClass (by assumption)⟩

/-- R87. -/
theorem encode_of_decodeClassE {w : Word} {i : Instr} (hClass : (opClass w).toNat = 14)
    (h : decodeClassE w = .ok i) : i.wellFormed = true ∧ encode i = w := by
  unfold decodeClassE at h
  split at h <;> cases h <;> exact ⟨rfl, encXkk_fields hClass (by assumption)⟩

/-- R88. -/
theorem encode_of_decodeClassF {w : Word} {i : Instr} (hClass : (opClass w).toNat = 15)
    (h : decodeClassF w = .ok i) : i.wellFormed = true ∧ encode i = w := by
  unfold decodeClassF at h
  split at h <;> cases h <;> exact ⟨rfl, encXkk_fields hClass (by assumption)⟩

/-- R84, R89: in each class, the fields that the decoder reads are the whole word. The cases
are the decoder's arms in order: `h_1` is class 0, `h_16` class 0xF. -/
theorem encode_of_decode {w : Word} {i : Instr} (h : decode w = .ok i) : i.wellFormed = true ∧ encode i = w := by
  unfold decode at h
  split at h
  case h_1 hClass => exact encode_of_decodeClass0 hClass h
  case h_9 hClass => exact encode_of_decodeClass8 hClass h
  case h_15 hClass => exact encode_of_decodeClassE hClass h
  case h_16 hClass => exact encode_of_decodeClassF hClass h
  case h_2 hClass | h_3 hClass | h_11 hClass | h_12 hClass =>
    cases h
    exact ⟨rfl, encAddr_fields hClass⟩
  case h_4 hClass | h_5 hClass | h_7 hClass | h_8 hClass | h_13 hClass =>
    cases h
    exact ⟨rfl, encXkk_fields hClass rfl⟩
  case h_6 hClass | h_10 hClass =>
    split at h
    case isTrue hN =>
      cases h
      exact ⟨rfl, encXyn_fields hClass hN⟩
    case isFalse => cases h
  case h_14 hClass =>
    cases h
    exact ⟨rfl, encXyn_fields hClass rfl⟩
  case h_17 => cases h

/-! ## The rows of the opcode table (R94) -/

/-- The lemmas of `Laws.EncodesItsRow`, together. -/
theorem encodesItsRow : ∀ i : Instr, Laws.EncodesItsRow.Statement i
  | .sys nnn => Laws.EncodesItsRow.sys nnn
  | .cls => Laws.EncodesItsRow.cls
  | .ret => Laws.EncodesItsRow.ret
  | .jp nnn => Laws.EncodesItsRow.jp nnn
  | .call nnn => Laws.EncodesItsRow.call nnn
  | .seImm x kk => Laws.EncodesItsRow.seImm x kk
  | .sneImm x kk => Laws.EncodesItsRow.sneImm x kk
  | .seReg x y => Laws.EncodesItsRow.seReg x y
  | .ldImm x kk => Laws.EncodesItsRow.ldImm x kk
  | .addImm x kk => Laws.EncodesItsRow.addImm x kk
  | .ldReg x y => Laws.EncodesItsRow.ldReg x y
  | .orReg x y => Laws.EncodesItsRow.orReg x y
  | .andReg x y => Laws.EncodesItsRow.andReg x y
  | .xorReg x y => Laws.EncodesItsRow.xorReg x y
  | .addReg x y => Laws.EncodesItsRow.addReg x y
  | .sub x y => Laws.EncodesItsRow.sub x y
  | .shr x y => Laws.EncodesItsRow.shr x y
  | .subn x y => Laws.EncodesItsRow.subn x y
  | .shl x y => Laws.EncodesItsRow.shl x y
  | .sneReg x y => Laws.EncodesItsRow.sneReg x y
  | .ldI nnn => Laws.EncodesItsRow.ldI nnn
  | .jpV0 nnn => Laws.EncodesItsRow.jpV0 nnn
  | .rnd x kk => Laws.EncodesItsRow.rnd x kk
  | .drw x y n => Laws.EncodesItsRow.drw x y n
  | .skp x => Laws.EncodesItsRow.skp x
  | .sknp x => Laws.EncodesItsRow.sknp x
  | .ldVxDt x => Laws.EncodesItsRow.ldVxDt x
  | .ldVxK x => Laws.EncodesItsRow.ldVxK x
  | .ldDtVx x => Laws.EncodesItsRow.ldDtVx x
  | .ldStVx x => Laws.EncodesItsRow.ldStVx x
  | .addI x => Laws.EncodesItsRow.addI x
  | .ldF x => Laws.EncodesItsRow.ldF x
  | .ldB x => Laws.EncodesItsRow.ldB x
  | .ldMemVx x => Laws.EncodesItsRow.ldMemVx x
  | .ldVxMem x => Laws.EncodesItsRow.ldVxMem x

theorem accepts_iff {r : OpRow} {w : Word} : r.accepts w = true ↔ w &&& r.mask = r.value := by
  simp [OpRow.accepts]

theorem wellFormed_of_executes {i : Instr} (h : i.executes = true) : i.wellFormed = true := by
  cases i with
  | sys => cases h
  | _ => rfl

theorem row_mem_executingRows {i : Instr} (h : i.executes = true) : i.row ∈ executingRows := by
  cases i with
  | sys => cases h
  | _ => simp [executingRows, Instr.row]

section
variable {w : Word} {c : BitVec 4}

theorem eq_of_and_ones {v : Word} (h : w &&& 0xFFFF = v) : w = v :=
  (BitVec.and_allOnes (x := w)).symm.trans h

theorem opClass_of_and (h : w &&& 0xF000 = encAddr c 0) : opClass w = c := by
  rw [← class_append_nnn w, Laws.encAddr_and] at h
  simpa using congrArg opClass h

theorem encAddr_of_and (h : w &&& 0xF000 = encAddr c 0) : encAddr c (fieldNnn w) = w :=
  encAddr_fields (congrArg BitVec.toNat (opClass_of_and h))

theorem encXkk_of_and (h : w &&& 0xF000 = encAddr c 0) : encXkk c (fieldX w) (fieldKk w) = w :=
  encXkk_fields (congrArg BitVec.toNat (opClass_of_and h)) rfl

theorem encXyn_of_and (h : w &&& 0xF000 = encAddr c 0) : encXyn c (fieldX w) (fieldY w) (fieldN w) = w :=
  encXyn_fields (congrArg BitVec.toNat (opClass_of_and h)) rfl

theorem encXkk_of_and_low {kk : Byte} (h : w &&& 0xF0FF = encXkk c 0 kk) : encXkk c (fieldX w) kk = w := by
  have hWord : encXkk (opClass w) (fieldX w) (fieldKk w) = w := encXkk_fields rfl rfl
  rw [← hWord, Laws.encXkk_and_low] at h
  exact encXkk_fields (by simpa using congrArg (BitVec.toNat ∘ opClass) h)
    (by simpa using congrArg (BitVec.toNat ∘ fieldKk) h)

theorem encXyn_of_and_low {n : Fin 16} (h : w &&& 0xF00F = encXyn c 0 0 n) :
    encXyn c (fieldX w) (fieldY w) n = w := by
  have hWord : encXyn (opClass w) (fieldX w) (fieldY w) (fieldN w) = w := encXyn_fields rfl rfl
  rw [← hWord, Laws.encXyn_and_low] at h
  exact encXyn_fields (by simpa using congrArg (BitVec.toNat ∘ opClass) h)
    (by simpa using congrArg (Fin.val ∘ fieldN) h)

end

/-- A word that an executing row accepts is the word of an instruction of that row, whose operands are its fields. -/
theorem exists_instr_of_accepts {w : Word} :
    ∀ r ∈ executingRows, w &&& r.mask = r.value → ∃ i : Instr, i.executes = true ∧ i.row = r ∧ encode i = w := by
  simp only [executingRows, List.cons_append, List.nil_append, List.forall_mem_cons]
  exact ⟨
   fun h => ⟨.cls, rfl, rfl, (eq_of_and_ones h).symm⟩,
   fun h => ⟨.ret, rfl, rfl, (eq_of_and_ones h).symm⟩,
   fun h => ⟨.jp (fieldNnn w), rfl, rfl, encAddr_of_and h⟩,
   fun h => ⟨.call (fieldNnn w), rfl, rfl, encAddr_of_and h⟩,
   fun h => ⟨.seImm (fieldX w) (fieldKk w), rfl, rfl, encXkk_of_and h⟩,
   fun h => ⟨.sneImm (fieldX w) (fieldKk w), rfl, rfl, encXkk_of_and h⟩,
   fun h => ⟨.seReg (fieldX w) (fieldY w), rfl, rfl, encXyn_of_and_low h⟩,
   fun h => ⟨.ldImm (fieldX w) (fieldKk w), rfl, rfl, encXkk_of_and h⟩,
   fun h => ⟨.addImm (fieldX w) (fieldKk w), rfl, rfl, encXkk_of_and h⟩,
   fun h => ⟨.ldReg (fieldX w) (fieldY w), rfl, rfl, encXyn_of_and_low h⟩,
   fun h => ⟨.orReg (fieldX w) (fieldY w), rfl, rfl, encXyn_of_and_low h⟩,
   fun h => ⟨.andReg (fieldX w) (fieldY w), rfl, rfl, encXyn_of_and_low h⟩,
   fun h => ⟨.xorReg (fieldX w) (fieldY w), rfl, rfl, encXyn_of_and_low h⟩,
   fun h => ⟨.addReg (fieldX w) (fieldY w), rfl, rfl, encXyn_of_and_low h⟩,
   fun h => ⟨.sub (fieldX w) (fieldY w), rfl, rfl, encXyn_of_and_low h⟩,
   fun h => ⟨.shr (fieldX w) (fieldY w), rfl, rfl, encXyn_of_and_low h⟩,
   fun h => ⟨.subn (fieldX w) (fieldY w), rfl, rfl, encXyn_of_and_low h⟩,
   fun h => ⟨.shl (fieldX w) (fieldY w), rfl, rfl, encXyn_of_and_low h⟩,
   fun h => ⟨.sneReg (fieldX w) (fieldY w), rfl, rfl, encXyn_of_and_low h⟩,
   fun h => ⟨.ldI (fieldNnn w), rfl, rfl, encAddr_of_and h⟩,
   fun h => ⟨.jpV0 (fieldNnn w), rfl, rfl, encAddr_of_and h⟩,
   fun h => ⟨.rnd (fieldX w) (fieldKk w), rfl, rfl, encXkk_of_and h⟩,
   fun h => ⟨.drw (fieldX w) (fieldY w) (fieldN w), rfl, rfl, encXyn_of_and h⟩,
   fun h => ⟨.skp (fieldX w), rfl, rfl, encXkk_of_and_low h⟩,
   fun h => ⟨.sknp (fieldX w), rfl, rfl, encXkk_of_and_low h⟩,
   fun h => ⟨.ldVxDt (fieldX w), rfl, rfl, encXkk_of_and_low h⟩,
   fun h => ⟨.ldVxK (fieldX w), rfl, rfl, encXkk_of_and_low h⟩,
   fun h => ⟨.ldDtVx (fieldX w), rfl, rfl, encXkk_of_and_low h⟩,
   fun h => ⟨.ldStVx (fieldX w), rfl, rfl, encXkk_of_and_low h⟩,
   fun h => ⟨.addI (fieldX w), rfl, rfl, encXkk_of_and_low h⟩,
   fun h => ⟨.ldF (fieldX w), rfl, rfl, encXkk_of_and_low h⟩,
   fun h => ⟨.ldB (fieldX w), rfl, rfl, encXkk_of_and_low h⟩,
   fun h => ⟨.ldMemVx (fieldX w), rfl, rfl, encXkk_of_and_low h⟩,
   fun h => ⟨.ldVxMem (fieldX w), rfl, rfl, encXkk_of_and_low h⟩,
   List.forall_mem_nil _⟩

/-! ## R84's decode -/

theorem decodesTo_of_executes {w : Word} {i : Instr} (hDecode : decode w = .ok i) (hExec : i.executes = true) :
    decodesTo w = .ok i := by
  simp [decodesTo, hDecode, hExec]

theorem decode_of_decodesTo {w : Word} {i : Instr} (h : decodesTo w = .ok i) :
    decode w = .ok i ∧ i.executes = true := by
  unfold decodesTo at h
  split at h
  · split_ifs at h with hExec
    cases h
    exact ⟨by assumption, hExec⟩
  · cases h

/-- A word that an executing row accepts decodes to an instruction of that row. -/
theorem decode_of_accepts {w : Word} {r : OpRow} (hr : r ∈ executingRows) (hAccepts : r.accepts w = true) :
    ∃ i : Instr, decode w = .ok i ∧ i.executes = true ∧ i.row = r := by
  obtain ⟨i, hExec, hRow, rfl⟩ := exists_instr_of_accepts r hr (accepts_iff.mp hAccepts)
  exact ⟨i, decode_encode (wellFormed_of_executes hExec), hExec, hRow⟩

/-- An instruction that a word decodes to accepts the word in its row. -/
theorem row_accepts_of_decode {w : Word} {i : Instr} (h : decode w = .ok i) : i.row.accepts w = true := by
  obtain ⟨hWf, rfl⟩ := encode_of_decode h
  exact encodesItsRow i hWf

/-- A 16-bit word is never too short, so a word of no row is UnknownOpcode (R84). -/
theorem decode_eq_error {w : Word} {e : DecodeError} (h : decode w = .error e) : e = .unknownOpcode := by
  unfold decode decodeClass0 decodeClass8 decodeClassE decodeClassF at h
  split at h
  case h_1 => split_ifs at h
  case h_6 | h_10 =>
    split_ifs at h
    cases h
    rfl
  case h_9 | h_15 | h_16 => split at h <;> simp_all
  case h_17 =>
    cases h
    rfl
  all_goals cases h

theorem decodesTo_eq_unknownOpcode_of_not_ok {w : Word} (h : ∀ i, decodesTo w ≠ .ok i) :
    decodesTo w = .error .unknownOpcode := by
  cases hDecode : decode w with
  | error e => simp [decodesTo, hDecode, decode_eq_error hDecode]
  | ok i =>
    cases hExec : i.executes with
    | false => simp [decodesTo, hDecode, hExec]
    | true => exact absurd (decodesTo_of_executes hDecode hExec) (h i)

theorem decode_of_lt_0x1000 {w : Word} (h : w.toNat < 0x1000) : decode w = decodeClass0 w := by
  have hClass : (opClass w).toNat = 0 := by
    rw [opClass, BitVec.extractLsb'_toNat, Nat.shiftRight_eq_div_pow]
    omega
  simp only [decode, hClass]

/-! ## The obligations -/

/-- Settles O1: each field of the word reads back. -/
theorem decodeOfEncodeIsTheInstruction : Obligations.DecodeOfEncodeIsTheInstruction :=
  fun _ hWf => decode_encode hWf

/-- Settles O2: the fields that the decoder reads are the whole word. -/
theorem encodeOfDecodeIsTheWord : Obligations.EncodeOfDecodeIsTheWord :=
  fun _ _ hDecode => encode_of_decode hDecode

/-- Settles O3: a word that a row accepts is the word of an instruction of that row, and decode takes every word to
one instruction at most. -/
theorem decodeFollowsTheOpcodeTable : Obligations.DecodeFollowsTheOpcodeTable := by
  refine fun w => ⟨fun i hDecode => ?_, ⟨fun hNone r hr => ?_, fun hNone => ?_⟩, fun r₁ hr₁ r₂ hr₂ h₁ h₂ => ?_⟩
  · obtain ⟨hRaw, hExec⟩ := decode_of_decodesTo hDecode
    exact ⟨row_mem_executingRows hExec, row_accepts_of_decode hRaw⟩
  · refine Bool.eq_false_iff.mpr fun hAccepts => ?_
    obtain ⟨i, hRaw, hExec, -⟩ := decode_of_accepts hr hAccepts
    cases hNone.symm.trans (decodesTo_of_executes hRaw hExec)
  · refine decodesTo_eq_unknownOpcode_of_not_ok fun i hDecode => ?_
    obtain ⟨hRaw, hExec⟩ := decode_of_decodesTo hDecode
    exact Bool.eq_false_iff.mp (hNone _ (row_mem_executingRows hExec)) (row_accepts_of_decode hRaw)
  · obtain ⟨i₁, hRaw₁, -, rfl⟩ := decode_of_accepts hr₁ h₁
    obtain ⟨i₂, hRaw₂, -, rfl⟩ := decode_of_accepts hr₂ h₂
    cases hRaw₁.symm.trans hRaw₂
    rfl

/-- Settles O4: each word is decoded as it stands. -/
theorem writtenOutWordsDecode : Obligations.WrittenOutWordsDecode := by
  unfold Obligations.WrittenOutWordsDecode
  decide

/-- Settles O5: the class of such a word is 0, where every word but two is of the SYS row. -/
theorem classZeroHoldsOnlyClsAndRet : Obligations.ClassZeroHoldsOnlyClsAndRet := by
  refine fun w hw => ⟨fun hCls => ?_, fun hRet => ?_, fun hNotCls hNotRet => ?_⟩
  · rw [hCls]
    rfl
  · rw [hRet]
    rfl
  · have hSys : decode w = .ok (.sys (fieldNnn w)) := by
      rw [decode_of_lt_0x1000 hw, decodeClass0, if_neg hNotCls, if_neg hNotRet]
    exact decodesTo_eq_unknownOpcode_iff.mpr (.inr ⟨_, hSys⟩)

/-- Settles O6: the word of SYS decodes to its row, which has no operation. -/
theorem sysIsUnknownOpcode : Obligations.SysIsUnknownOpcode :=
  fun nnn hCls hRet =>
    ⟨decodesTo_eq_unknownOpcode_iff.mpr (.inr ⟨nnn, decode_encode_sys hCls hRet⟩), exec_sys nnn⟩

end Sys2Proof.Proofs
end

section
/-! The errors of an instruction (R106, R108, R232): every meaning either raises the error that the checks list or
completes, then the obligation. -/

namespace Sys2Proof.Proofs

open Sys2Proof Sys2Proof.Machine

variable {s : State} {i : Instr}

/-! ## The two outcomes -/

/-- The instruction does what the checks of R108 say: it raises the listed error, or it completes. -/
def FollowsChecks (i : Instr) (s : State) : Prop :=
  (∃ e, errorOf i s = some e ∧ exec i s = raise e) ∨ (errorOf i s = none ∧ ∃ t, exec i s = .next t)

/-- The operand check is the only one of an instruction whose rule behind it completes. -/
theorem followsChecks_of_guarded {op : XOp} {x : Reg} {u : State}
    (hError : errorOf i s = if x = vf ∧ s.params.guards op = true then some .invalidOperand else none)
    (hExec : exec i s = guarded op x s (.next u)) : FollowsChecks i s := by
  cases hBlocked : s.blocked op x with
  | true =>
    exact .inl ⟨_, hError.trans (if_pos (blocked_eq_true.mp hBlocked)), hExec.trans (guarded_of_block hBlocked)⟩
  | false =>
    have hPass : ¬ (x = vf ∧ s.params.guards op = true) := by simp [← blocked_eq_true, hBlocked]
    exact .inr ⟨hError.trans (if_neg hPass), u, hExec.trans (guarded_of_pass hBlocked)⟩

theorem exec_ldF (x : Reg) (s : State) :
    exec (.ldF x) s = guarded .ldF x s
      (if (s.getV x).toNat > 0xF then raise .unmodelled else .next (s.setI (s.glyphAddr (s.getV x)))) := rfl

/-- R193: the font range is checked behind the operand check. -/
theorem followsChecks_ldF (x : Reg) : FollowsChecks (.ldF x) s := by
  cases hBlocked : s.blocked .ldF x with
  | true =>
    exact .inl ⟨_, if_pos (blocked_eq_true.mp hBlocked), (exec_ldF x s).trans (guarded_of_block hBlocked)⟩
  | false =>
    have hPass : ¬ (x = vf ∧ s.params.guards .ldF = true) := by simp [← blocked_eq_true, hBlocked]
    have hRun := (exec_ldF x s).trans (guarded_of_pass hBlocked)
    have hError : errorOf (.ldF x) s = if (s.getV x).toNat > 15 then some .unmodelled else none := if_neg hPass
    by_cases hGlyph : (s.getV x).toNat > 15
    · exact .inl ⟨_, hError.trans (if_pos hGlyph), hRun.trans (if_pos hGlyph)⟩
    · exact .inr ⟨hError.trans (if_neg hGlyph), _, hRun.trans (if_neg hGlyph)⟩

/-- R162: SP is at most 16. -/
theorem followsChecks_call (nnn : Addr12) : FollowsChecks (.call nnn) s := by
  by_cases hFull : s.sp.val = 16
  · exact .inl ⟨_, if_pos hFull, exec_call_of_full nnn hFull⟩
  · exact .inr ⟨if_neg hFull, _, exec_call_of_lt nnn (by omega)⟩

theorem followsChecks_ret : FollowsChecks .ret s := by
  by_cases hEmpty : s.sp.val = 0
  · exact .inl ⟨_, if_pos hEmpty, exec_ret_of_empty hEmpty⟩
  · exact .inr ⟨if_neg hEmpty, _, exec_ret_of_pos (by omega)⟩

theorem followsChecks (i : Instr) (s : State) : FollowsChecks i s := by
  cases i with
  | sys => exact .inl ⟨_, rfl, rfl⟩
  | cls | jp | jpV0 | ldI => exact .inr ⟨rfl, _, rfl⟩
  | call nnn => exact followsChecks_call nnn
  | ret => exact followsChecks_ret
  | ldF x => exact followsChecks_ldF x
  | seImm | sneImm | seReg | sneReg | skp | sknp | ldImm | addImm | ldReg | orReg | andReg | xorReg | addReg | sub | shr
  | subn | shl | rnd | drw | ldVxDt | ldVxK | ldDtVx | ldStVx | addI | ldB | ldMemVx | ldVxMem =>
    exact followsChecks_of_guarded rfl rfl

theorem exec_of_errorOf_some {e : Err} (h : errorOf i s = some e) : exec i s = .fault (.raised e) := by
  obtain ⟨e', hError, hExec⟩ | ⟨hError, -⟩ := followsChecks i s
  · cases h.symm.trans hError
    exact hExec
  · cases h.symm.trans hError

theorem exec_of_errorOf_none (h : errorOf i s = none) : ∃ t, exec i s = .next t := by
  obtain ⟨e, hError, -⟩ | ⟨-, hExec⟩ := followsChecks i s
  · cases h.symm.trans hError
  · exact hExec

theorem exec_raises_iff {e : Err} : exec i s = .fault (.raised e) ↔ errorOf i s = some e := by
  refine ⟨fun h => ?_, exec_of_errorOf_some⟩
  cases hError : errorOf i s with
  | some e' =>
    cases h.symm.trans (exec_of_errorOf_some hError)
    rfl
  | none =>
    obtain ⟨t, hExec⟩ := exec_of_errorOf_none hError
    cases h.symm.trans hExec

/-! ## The obligation -/

/-- Settles O15: the list of the checks decides between the two outcomes, so it is read off from either. -/
theorem instructionRaisesExactlyTheListedErrors : Obligations.InstructionRaisesExactlyTheListedErrors := by
  refine fun i s => ⟨fun e => exec_raises_iff, exec_of_errorOf_none, ?_⟩
  cases hError : errorOf i s with
  | some e =>
    rw [exec_of_errorOf_some hError]
    cases e <;> rfl
  | none =>
    obtain ⟨t, hExec⟩ := exec_of_errorOf_none hError
    rw [hExec, resultCode_next]

end Sys2Proof.Proofs
end

section
/-! The frame of every instruction (spec/10_state.md section 3), then the obligation. -/

namespace Sys2Proof.Proofs

open Sys2Proof Sys2Proof.Machine

variable {s t : State}

/-! ## Instructions -/

/-- What holds of the state that a checked rule gives holds of the state that the instruction answers. -/
theorem of_guarded_next {P : State → Prop} {op : XOp} {x : Reg} {u : State}
    (h : guarded op x s (.next u) = .next t) (hRule : P u) : P t := by
  obtain ⟨-, hEq⟩ := guarded_next h
  cases hEq
  exact hRule

theorem exec_ldF_of_glyph {x : Reg} (hPass : s.blocked .ldF x = false) (hGlyph : (s.getV x).toNat ≤ 15) :
    exec (.ldF x) s = .next (s.setI (s.glyphAddr (s.getV x))) :=
  (exec_ldF x s).trans ((guarded_of_pass hPass).trans (if_neg (by omega)))

theorem exec_ldF_of_no_glyph {x : Reg} (hPass : s.blocked .ldF x = false) (hNone : (s.getV x).toNat > 15) :
    exec (.ldF x) s = .fault (.raised .unmodelled) :=
  (exec_ldF x s).trans ((guarded_of_pass hPass).trans (if_pos hNone))

theorem exec_ldF_next {x : Reg} (h : exec (.ldF x) s = .next t) :
    s.blocked .ldF x = false ∧ (s.getV x).toNat ≤ 15 ∧ t = s.setI (s.glyphAddr (s.getV x)) := by
  obtain ⟨hPass, -⟩ := guarded_next h
  by_cases hGlyph : (s.getV x).toNat ≤ 15
  · cases (exec_ldF_of_glyph hPass hGlyph).symm.trans h
    exact ⟨hPass, hGlyph, rfl⟩
  · cases (exec_ldF_of_no_glyph hPass (by omega)).symm.trans h

theorem exec_call_next {nnn : Addr12} (h : exec (.call nnn) s = .next t) :
    ∃ hPlace : s.sp.val < 16, t = (s.push s.pc hPlace).setPc (zextAddr nnn) := by
  by_cases hPlace : s.sp.val < 16
  · cases (exec_call_of_lt nnn hPlace).symm.trans h
    exact ⟨hPlace, rfl⟩
  · cases (exec_call_of_full nnn (by omega)).symm.trans h

theorem exec_ret_next (h : exec .ret s = .next t) : ∃ hHeld : 0 < s.sp.val, t = s.pop.setPc (s.top hHeld) := by
  by_cases hHeld : 0 < s.sp.val
  · cases (exec_ret_of_pos hHeld).symm.trans h
    exact ⟨hHeld, rfl⟩
  · cases (exec_ret_of_empty (by omega)).symm.trans h

/-- Cxkk writes its register and spends its draw. -/
theorem unchanged_rnd (x : Reg) (b : Byte) : Unchanged { regs := [x], draws := true } s (s.setV x b).spendDraw := by
  obtain ⟨hRegs, -⟩ := unchanged_setV (s := s) x b
  exact ⟨hRegs, by simp [State.readByte]⟩

theorem unchanged_of_exec_next {i : Instr} (h : exec i s = .next t) : Unchanged (writes i s) s t := by
  cases i with
  | sys => cases h
  | cls =>
    cases h
    exact unchanged_setFb _
  | jp | jpV0 =>
    cases h
    exact unchanged_setPc _
  | ldI =>
    cases h
    exact unchanged_setI _
  | call nnn =>
    obtain ⟨hPlace, rfl⟩ := exec_call_next h
    exact unchanged_setPc_of_stack (unchanged_push _ hPlace) _
  | ret =>
    obtain ⟨hHeld, rfl⟩ := exec_ret_next h
    exact unchanged_setPc_of_stack unchanged_pop _
  | ldF x =>
    obtain ⟨-, -, rfl⟩ := exec_ldF_next h
    exact unchanged_setI _
  | seImm | sneImm | seReg | sneReg | skp | sknp => exact of_guarded_next h (unchanged_skipIf _)
  | ldImm | addImm | ldReg | orReg | andReg | xorReg | ldVxDt => exact of_guarded_next h (unchanged_setV _ _)
  | addReg | sub | shr | subn | shl => exact of_guarded_next h (unchanged_setVFlag _ _ _)
  | rnd => exact of_guarded_next h (unchanged_rnd _ _)
  | drw x y n => exact of_guarded_next h (unchanged_drawn x y n s)
  | ldVxK => exact of_guarded_next h (unchanged_setWait _)
  | ldDtVx => exact of_guarded_next h (unchanged_setDt _)
  | ldStVx => exact of_guarded_next h (unchanged_setSt _)
  | addI => exact of_guarded_next h (unchanged_setI _)
  | ldB x => exact of_guarded_next h (unchanged_storeBytes s.i (bcdDigits (s.getV x)))
  | ldMemVx => exact of_guarded_next h (unchanged_store_regsTo s.i)
  | ldVxMem x => exact of_guarded_next h (unchanged_loadRegs x)

/-! ## The obligation -/

/-- Settles O16: each instruction is one of the shared updates, whose frames are known. -/
theorem instructionWritesOnlyItsDestinations : Obligations.InstructionWritesOnlyItsDestinations :=
  fun _ _ _ hExec => unchanged_of_exec_next hExec

end Sys2Proof.Proofs
end

section
/-! What a transaction and a step can write (R28 to R30, R147): which instructions change an element, the inversion of
every transaction, then the obligations. -/

namespace Sys2Proof.Proofs

open Sys2Proof Sys2Proof.Machine

variable {s t : State} {i : Instr}

/-! ## Instructions, from their frames -/

theorem exec_next_fault (h : exec i s = .next t) : t.fault = s.fault := by
  obtain ⟨-, -, -, -, -, -, -, -, -, -, -, hFault, -⟩ := unchanged_of_exec_next h
  exact hFault

theorem exec_next_params (h : exec i s = .next t) : t.params = s.params := by
  obtain ⟨-, -, -, -, -, -, -, -, -, -, -, -, hParams, -⟩ := unchanged_of_exec_next h
  exact hParams

theorem exec_next_schedule (h : exec i s = .next t) : t.schedule = s.schedule := by
  obtain ⟨-, -, -, -, -, -, -, -, -, -, -, -, -, hSchedule⟩ := unchanged_of_exec_next h
  exact hSchedule

theorem exec_next_keypad (h : exec i s = .next t) : t.keypad = s.keypad := by
  obtain ⟨-, -, -, -, -, -, -, -, hKept, -⟩ := unchanged_of_exec_next h
  exact hKept (by cases i <;> rfl)

theorem exec_next_fb (h : exec i s = .next t) (hChanged : t.fb ≠ s.fb) : i = .cls ∨ ∃ x y n, i = .drw x y n := by
  obtain ⟨-, -, -, -, -, hKept, -⟩ := unchanged_of_exec_next h
  cases i with
  | cls => exact .inl rfl
  | drw x y n => exact .inr ⟨x, y, n, rfl⟩
  | _ => exact absurd (hKept rfl) hChanged

theorem exec_next_dt (h : exec i s = .next t) (hChanged : t.dt ≠ s.dt) : ∃ x, i = .ldDtVx x := by
  obtain ⟨-, -, -, -, -, -, hKept, -⟩ := unchanged_of_exec_next h
  cases i with
  | ldDtVx x => exact ⟨x, rfl⟩
  | _ => exact absurd (hKept rfl) hChanged

theorem exec_next_st (h : exec i s = .next t) (hChanged : t.st ≠ s.st) : ∃ x, i = .ldStVx x := by
  obtain ⟨-, -, -, -, -, -, -, hKept, -⟩ := unchanged_of_exec_next h
  cases i with
  | ldStVx x => exact ⟨x, rfl⟩
  | _ => exact absurd (hKept rfl) hChanged

theorem exec_next_draws (h : exec i s = .next t) (hNotRnd : ∀ x kk, i ≠ .rnd x kk) : t.draws = s.draws := by
  obtain ⟨-, -, -, -, -, -, -, -, -, -, hKept, -⟩ := unchanged_of_exec_next h
  cases i with
  | rnd x kk => exact absurd rfl (hNotRnd x kk)
  | _ => exact hKept rfl

/-! ## Transactions -/

/-- The transaction is the execution of this word: a CYCLE fetches it, a STEP is given it. -/
def Executes (m : HostMove) (s : State) (w : Word) : Prop := m = .cycle ∧ w = s.fetchWord ∨ m = .step w

/-- A CYCLE or a STEP that answers a next state moved PC and the latch at most, or ran one instruction from a state
that differs in PC at most. -/
theorem transact_next_of_executes {m : HostMove} (hm : m.executes = true) (h : transact m s = .next t) :
    (∃ pc fault, t = { s with pc := pc, fault := fault })
    ∨ ∃ w i pc, Executes m s w ∧ decode w = .ok i ∧ exec i (s.setPc pc) = .next t := by
  cases m with
  | cycle =>
    obtain ⟨-, -, ⟨-, rfl⟩ | ⟨-, hRun⟩ | ⟨e, -, -, rfl⟩⟩ := cycle_next h
    · exact .inl ⟨_, _, rfl⟩
    · obtain ⟨-, rfl⟩ | ⟨-, i, hDecode, hExec⟩ := stepWord_next hRun
      · exact .inl ⟨_, _, rfl⟩
      · exact .inr ⟨_, i, _, .inl ⟨rfl, rfl⟩, hDecode, hExec⟩
    · exact .inl ⟨_, _, rfl⟩
  | step w =>
    obtain ⟨-, rfl⟩ | ⟨-, i, hDecode, hExec⟩ := stepWord_next h
    · exact .inl ⟨_, _, rfl⟩
    · exact .inr ⟨w, i, s.pc, .inr rfl, hDecode, hExec⟩
  | _ => cases hm

/-- R215. -/
theorem resolveKey_of_waiting {r : Reg} (key : Byte) (h : s.wait = .waiting r) :
    s.resolveKey key = (s.setV r key).setWait .idle := by
  simp [State.resolveKey, h]

theorem resolveKey_of_idle (key : Byte) (h : s.wait = .idle) : s.resolveKey key = s := by
  simp [State.resolveKey, h]

/-- RESOLVE_KEY writes registers and the marker only. -/
theorem resolveKey_next {key : Byte} (h : transact (.resolveKey key) s = .next t) :
    ∃ v, t = { s with v := v, wait := .idle } := by
  cases h
  cases hWait : s.wait with
  | idle =>
    rw [resolveKey_of_idle key hWait, ← hWait]
    exact ⟨s.v, rfl⟩
  | waiting r =>
    rw [resolveKey_of_waiting key hWait]
    exact ⟨_, rfl⟩

theorem timerWrite_next {sel : TimerSel} {b : Byte} (h : transact (.timerWrite sel b) s = .next t) :
    ∃ dt st, t = { s with dt := dt, st := st } := by
  cases h
  cases sel <;> exact ⟨_, _, rfl⟩

/-- The other transactions of the host reach registers, memory, timers, key mask and marker only. -/
theorem transact_next_of_not_executes {m : HostMove} (hm : m.executes = false) (h : transact m s = .next t) :
    ∃ v mem dt st keypad wait,
      t = { s with v := v, mem := mem, dt := dt, st := st, keypad := keypad, wait := wait } := by
  cases m with
  | cycle | step => cases hm
  | resolveKey key =>
    obtain ⟨v, rfl⟩ := resolveKey_next h
    exact ⟨_, _, _, _, _, _, rfl⟩
  | timerWrite sel b =>
    obtain ⟨dt, st, rfl⟩ := timerWrite_next h
    exact ⟨_, _, _, _, _, _, rfl⟩
  | tick | keypadWrite | memLoad | fbRead | timerRead | statusRead =>
    cases h
    exact ⟨_, _, _, _, _, _, rfl⟩

/-- No transaction writes the parameters or the queue. -/
theorem transact_next_keeps {m : HostMove} (h : transact m s = .next t) :
    t.params = s.params ∧ t.schedule = s.schedule := by
  cases hm : m.executes with
  | true =>
    obtain ⟨pc, fault, rfl⟩ | ⟨w, i, pc, -, -, hExec⟩ := transact_next_of_executes hm h
    · exact ⟨rfl, rfl⟩
    · exact ⟨(exec_next_params hExec :), (exec_next_schedule hExec :)⟩
  | false =>
    obtain ⟨_, _, _, _, _, _, rfl⟩ := transact_next_of_not_executes hm h
    exact ⟨rfl, rfl⟩

/-- A step that answers a next state is a CYCLE, or the first queued transaction with the rest queued. -/
theorem step_next (h : step s = .next t) :
    s.schedule = [] ∧ transact .cycle s = .next t
    ∨ ∃ m rest, s.schedule = m :: rest ∧ transact m (s.setSchedule rest) = .next t := by
  cases hQueue : s.schedule with
  | nil => exact .inl ⟨rfl, (step_of_empty hQueue).symm.trans h⟩
  | cons m rest => exact .inr ⟨m, rest, rfl, (step_of_queued hQueue).symm.trans h⟩

/-! ## The obligations -/

/-- Settles O51: the queue is looked at before anything else, and no transaction writes it. -/
theorem queuedTransactionsRunInOrder : Obligations.QueuedTransactionsRunInOrder := by
  refine fun s m rest => ⟨step_of_queued, step_of_empty, fun t hQueue hRun => ?_⟩
  obtain ⟨-, hSchedule⟩ := transact_next_keeps ((step_of_queued hQueue).symm.trans hRun)
  exact hSchedule

/-- Settles O57: a step is one transaction, and none writes the parameters. -/
theorem parametersNeverChange : Obligations.ParametersNeverChange := by
  intro s t hRun
  obtain ⟨-, hCycle⟩ | ⟨m, rest, -, hMove⟩ := step_next hRun
  · exact (transact_next_keeps hCycle).1
  · exact (transact_next_keeps hMove).1

/-- Settles O53: the frames of all instructions but CLS and DRW keep the framebuffer. -/
theorem framebufferChangesOnlyByDrawAndClear : Obligations.FramebufferChangesOnlyByDrawAndClear := by
  intro m s t hRun hChanged
  cases hm : m.executes with
  | true =>
    obtain ⟨pc, fault, rfl⟩ | ⟨w, i, pc, hWord, hDecode, hExec⟩ := transact_next_of_executes hm hRun
    · exact absurd rfl hChanged
    · exact ⟨w, i, hWord, hDecode, exec_next_fb hExec hChanged⟩
  | false =>
    obtain ⟨_, _, _, _, _, _, rfl⟩ := transact_next_of_not_executes hm hRun
    exact absurd rfl hChanged

/-- Settles O54: no instruction's frame has the key mask. -/
theorem keypadIsSetOnlyByItsPort : Obligations.KeypadIsSetOnlyByItsPort := by
  intro m s t hRun hChanged
  cases m with
  | cycle | step =>
    obtain ⟨pc, fault, rfl⟩ | ⟨w, i, pc, -, -, hExec⟩ := transact_next_of_executes rfl hRun
    · exact absurd rfl hChanged
    · exact absurd (exec_next_keypad hExec) hChanged
  | keypadWrite mask =>
    cases hRun
    rfl
  | timerWrite sel b =>
    obtain ⟨dt, st, rfl⟩ := timerWrite_next hRun
    exact absurd rfl hChanged
  | resolveKey key =>
    obtain ⟨v, rfl⟩ := resolveKey_next hRun
    exact absurd rfl hChanged
  | tick | memLoad | fbRead | timerRead | statusRead =>
    cases hRun
    exact absurd rfl hChanged

/-- Settles O56: of the instructions only Fx15 and Fx18 have a timer in their frame, and TIMER_WRITE writes the timer it
selects. -/
theorem timersChangeOnlyByTheirWriters : Obligations.TimersChangeOnlyByTheirWriters := by
  intro m s t hRun
  cases m with
  | cycle | step =>
    obtain ⟨pc, fault, rfl⟩ | ⟨w, i, pc, hWord, hDecode, hExec⟩ := transact_next_of_executes rfl hRun
    · exact ⟨absurd rfl, absurd rfl⟩
    · refine ⟨fun hChanged => ?_, fun hChanged => ?_⟩
      · obtain ⟨x, rfl⟩ := exec_next_dt hExec hChanged
        exact .inr (.inr ⟨w, x, hWord, hDecode⟩)
      · obtain ⟨x, rfl⟩ := exec_next_st hExec hChanged
        exact .inr (.inr ⟨w, x, hWord, hDecode⟩)
  | tick => exact ⟨fun _ => .inl rfl, fun _ => .inl rfl⟩
  | timerWrite sel b =>
    cases hRun
    cases sel with
    | dt => exact ⟨fun _ => .inr (.inl rfl), absurd rfl⟩
    | st => exact ⟨absurd rfl, fun _ => .inr (.inl rfl)⟩
  | resolveKey key =>
    obtain ⟨v, rfl⟩ := resolveKey_next hRun
    exact ⟨absurd rfl, absurd rfl⟩
  | keypadWrite | memLoad | fbRead | timerRead | statusRead =>
    cases hRun
    exact ⟨absurd rfl, absurd rfl⟩

end Sys2Proof.Proofs
end

section
/-! The canonical form of memory (R61): instructions, transactions and steps keep it; then the obligation. -/

namespace Sys2Proof.Proofs

open Sys2Proof Sys2Proof.Machine

variable {s t : State} {i : Instr}

/-- Memory after is memory before, or memory after one store at I. -/
def StoresAtMost (s t : State) : Prop := t.mem = s.mem ∨ ∃ bs, t.mem = storeFrom s.i 0 bs s.mem

theorem storesAtMost_of_mem_eq (h : t.mem = s.mem) : StoresAtMost s t := .inl h

theorem storesAtMost_storeBytes (bs : List Byte) : StoresAtMost s (s.storeBytes s.i bs) := .inr ⟨bs, rfl⟩

/-- Fx33 and Fx55 are the instructions that write memory, and each is one store. -/
theorem exec_next_storesAtMost (h : exec i s = .next t) : StoresAtMost s t := by
  cases i with
  | ldB | ldMemVx => exact of_guarded_next h (storesAtMost_storeBytes _)
  | sys => cases h
  | cls | jp | jpV0 | ldI =>
    cases h
    exact storesAtMost_of_mem_eq rfl
  | call =>
    obtain ⟨_, rfl⟩ := exec_call_next h
    exact storesAtMost_of_mem_eq rfl
  | ret =>
    obtain ⟨_, rfl⟩ := exec_ret_next h
    exact storesAtMost_of_mem_eq rfl
  | ldF =>
    obtain ⟨-, -, rfl⟩ := exec_ldF_next h
    exact storesAtMost_of_mem_eq rfl
  | seImm | sneImm | seReg | sneReg | skp | sknp =>
    exact of_guarded_next h (storesAtMost_of_mem_eq (by rw [skipIf_eq, setPc_mem]))
  | ldImm | addImm | ldReg | orReg | andReg | xorReg | addReg | sub | shr | subn | shl | rnd | drw | ldVxDt | ldVxK
  | ldDtVx | ldStVx | addI | ldVxMem => exact of_guarded_next h (storesAtMost_of_mem_eq rfl)

theorem exec_next_memoryCanonical (hMem : MemoryCanonical s) (h : exec i s = .next t) : MemoryCanonical t := by
  unfold MemoryCanonical
  obtain hKept | ⟨bs, hStore⟩ := exec_next_storesAtMost h
  · rw [hKept]
    exact hMem
  · rw [hStore]
    exact storeFrom_wf hMem

/-- MEM_LOAD writes inside the address space, because its address has 12 bits. -/
theorem memLoad_memoryCanonical (hMem : MemoryCanonical s) (a : Addr12) (b : Byte) :
    MemoryCanonical (s.memLoad a b) :=
  Memory.wf_write a.isLt hMem

theorem transact_next_memoryCanonical {m : HostMove} (hMem : MemoryCanonical s) (h : transact m s = .next t) :
    MemoryCanonical t := by
  cases m with
  | cycle | step =>
    obtain ⟨pc, fault, rfl⟩ | ⟨w, i, pc, -, -, hExec⟩ := transact_next_of_executes rfl h
    · exact hMem
    · exact exec_next_memoryCanonical (s := s.setPc pc) hMem hExec
  | memLoad a b =>
    cases h
    exact memLoad_memoryCanonical hMem a b
  | timerWrite =>
    obtain ⟨dt, st, rfl⟩ := timerWrite_next h
    exact hMem
  | resolveKey =>
    obtain ⟨v, rfl⟩ := resolveKey_next h
    exact hMem
  | tick | keypadWrite | fbRead | timerRead | statusRead =>
    cases h
    exact hMem

/-- Settles O59: a step is one transaction, and taking it from the queue leaves memory alone. -/
theorem everyStepKeepsMemoryCanonical : Obligations.EveryStepKeepsMemoryCanonical := by
  intro s t hMem hRun
  obtain ⟨-, hCycle⟩ | ⟨m, rest, -, hMove⟩ := step_next hRun
  · exact transact_next_memoryCanonical hMem hCycle
  · exact transact_next_memoryCanonical (s := s.setSchedule rest) hMem hMove

end Sys2Proof.Proofs
end

section
/-! CYCLE and the fault latch (R101 to R109, R233): a CYCLE case by case, what a raised error depends on, the elements
that no instruction reads, then the obligations. -/

namespace Sys2Proof.Proofs

open Sys2Proof Sys2Proof.Machine

variable {s t : State} {i : Instr}

/-! ## CYCLE -/

/-- R102. -/
theorem cycle_of_not_fetchable (hFault : s.fault = none) (hWait : s.wait = .idle) (hPc : fetchable s.pc = false) :
    cycle s = .next { s with fault := some .pcOutOfRange } := by
  simp [cycle, hFault, hWait, hPc, State.latch]

/-- R109. -/
theorem cycle_of_raise {e : Err} (hFault : s.fault = none) (hWait : s.wait = .idle) (hPc : fetchable s.pc = true)
    (hRaise : stepWord s.fetchWord s.advancePc = .fault (.raised e)) :
    cycle s = .next { s with pc := s.pc + 2#16, fault := some e } := by
  rw [cycle_runs hFault hWait hPc, hRaise]
  rfl

theorem cycle_of_next (hFault : s.fault = none) (hWait : s.wait = .idle) (hPc : fetchable s.pc = true)
    (hRun : stepWord s.fetchWord s.advancePc = .next t) : cycle s = .next t := by
  rw [cycle_runs hFault hWait hPc, hRun]
  rfl

/-- Settles O10: the STEP of the fetched word is its instruction, and the CYCLE answers either of its outcomes. -/
theorem stepRunsTheDecodedInstruction : Obligations.StepRunsTheDecodedInstruction := by
  intro s i hQueue hFault hWait hPc hDecode
  have hStep : stepWord s.fetchWord s.advancePc = exec i s.advancePc := stepWord_of_decode_ok hWait hDecode
  rw [step_of_empty hQueue]
  exact ⟨fun t hRun => cycle_of_next hFault hWait hPc (hStep.trans hRun),
    fun e hRaise => cycle_of_raise hFault hWait hPc (hStep.trans hRaise)⟩

/-- Settles O12: such a PC may not be fetched from. -/
theorem fetchOutOfRangeLatchesOnly : Obligations.FetchOutOfRangeLatchesOnly := by
  intro s hQueue hFault hWait hPc
  have hBad : fetchable s.pc = false := by
    rw [Bool.eq_false_iff, ne_eq, fetchable_iff]
    omega
  exact (step_of_empty hQueue).trans (cycle_of_not_fetchable hFault hWait hBad)

/-- Settles O13: STEP and CYCLE look at the marker before anything else of theirs. -/
theorem pendingKeyWaitStopsExecution : Obligations.PendingKeyWaitStopsExecution := by
  intro s x hWait
  have hNotIdle : s.wait ≠ .idle := by simp [hWait]
  refine ⟨fun w => ?_, fun t => cycle_held (.inr hNotIdle)⟩
  rw [stepWord_of_not_idle w hNotIdle]
  exact ⟨rfl, rfl⟩

/-! ## What a raised error depends on -/

theorem errorOf_ne_pcOutOfRange (i : Instr) (s : State) : errorOf i s ≠ some .pcOutOfRange := by
  unfold errorOf
  split
  · split_ifs
    · simp
    · split
      · split_ifs <;> simp
      · simp
  · split
    · simp
    · split_ifs <;> simp
    · split_ifs <;> simp
    · simp

/-- The checks read the parameters, the registers and SP only. -/
theorem errorOf_congr (hV : t.v = s.v) (hSp : t.sp = s.sp) (hParams : t.params = s.params) :
    errorOf i t = errorOf i s := by
  simp only [errorOf, getV_congr hV, hSp, hParams]

/-- A STEP raises an error when its word does not decode, or when the checks of its instruction list one. -/
theorem stepWord_raises_iff {w : Word} {e : Err} :
    stepWord w s = .fault (.raised e) ↔
      s.wait = .idle
        ∧ ((∃ d, decode w = .error d) ∧ e = .unknownOpcode ∨ ∃ i, decode w = .ok i ∧ errorOf i s = some e) := by
  constructor
  · intro h
    obtain ⟨hWait, ⟨hNone, hErr⟩ | ⟨i, hDecode, hExec⟩⟩ := stepWord_fault h
    · cases hErr
      exact ⟨hWait, .inl ⟨hNone, rfl⟩⟩
    · exact ⟨hWait, .inr ⟨i, hDecode, exec_raises_iff.mp hExec⟩⟩
  · rintro ⟨hWait, ⟨⟨d, hDecode⟩, rfl⟩ | ⟨i, hDecode, hError⟩⟩
    · exact stepWord_of_decode_error hWait hDecode
    · exact (stepWord_of_decode_ok hWait hDecode).trans (exec_raises_iff.mpr hError)

theorem stepWord_ne_pcOutOfRange (w : Word) (s : State) : stepWord w s ≠ .fault (.raised .pcOutOfRange) := by
  intro h
  obtain ⟨-, ⟨-, hErr⟩ | ⟨i, -, hError⟩⟩ := stepWord_raises_iff.mp h
  · cases hErr
  · exact errorOf_ne_pcOutOfRange i s hError

/-- A STEP raises the same error in every state with the same registers, SP and parameters and no key wait. -/
theorem stepWord_raises_congr {w : Word} {e : Err} (hWait : t.wait = .idle) (hV : t.v = s.v) (hSp : t.sp = s.sp)
    (hParams : t.params = s.params) (h : stepWord w s = .fault (.raised e)) : stepWord w t = .fault (.raised e) := by
  obtain ⟨-, hCause⟩ := stepWord_raises_iff.mp h
  refine stepWord_raises_iff.mpr ⟨hWait, ?_⟩
  simpa only [errorOf_congr hV hSp hParams] using hCause

/-! ## The latch as an invariant (R233) -/

/-- The invariant as two implications. -/
theorem latchTellsFailure_iff :
    LatchTellsFailure s ↔
      (s.fault = some .pcOutOfRange → fetchable s.pc = false)
      ∧ ∀ e, s.fault = some e → e ≠ .pcOutOfRange →
          s.wait = .idle ∧ fetchable (s.pc - 2#16) = true
            ∧ stepWord (s.wordAt (s.pc - 2#16)) s = .fault (.raised e) := by
  cases hFault : s.fault with
  | none => simp [LatchTellsFailure, hFault]
  | some e => cases e <;> simp [LatchTellsFailure, hFault]

theorem latchTellsFailure_of_silent (h : s.fault = none) : LatchTellsFailure s := by
  simp [LatchTellsFailure, h]

/-- The invariant speaks of the latch, PC and memory, and, where no key is waited for, of what the failing STEP
reads. -/
theorem latchTellsFailure_congr (hLatch : LatchTellsFailure s) (hFault : t.fault = s.fault) (hPc : t.pc = s.pc)
    (hMem : t.mem = s.mem)
    (hIdle : s.wait = .idle → t.wait = .idle ∧ t.v = s.v ∧ t.sp = s.sp ∧ t.params = s.params) :
    LatchTellsFailure t := by
  rw [latchTellsFailure_iff] at hLatch ⊢
  obtain ⟨hFetch, hStep⟩ := hLatch
  rw [hFault, hPc]
  refine ⟨hFetch, fun e he hne => ?_⟩
  obtain ⟨hWait, hAt, hRaise⟩ := hStep e he hne
  obtain ⟨hWait', hV, hSp, hParams⟩ := hIdle hWait
  have hWord : t.wordAt (s.pc - 2#16) = s.wordAt (s.pc - 2#16) := by simp only [State.wordAt, readByte_congr hMem]
  rw [hWord]
  exact ⟨hWait', hAt, stepWord_raises_congr hWait' hV hSp hParams hRaise⟩

/-- A CYCLE that fails latches the outcome with the failing word behind PC; one that completes latches nothing. -/
theorem cycle_next_latchTellsFailure (h : cycle s = .next t) : LatchTellsFailure t := by
  obtain ⟨hFault, hWait, ⟨hBad, rfl⟩ | ⟨-, hRun⟩ | ⟨e, hPc, hRaise, rfl⟩⟩ := cycle_next h
  · exact latchTellsFailure_iff.mpr ⟨fun _ => hBad, fun e he hne => absurd (Option.some.inj he).symm hne⟩
  · refine latchTellsFailure_of_silent ?_
    obtain ⟨-, rfl⟩ | ⟨-, i, -, hExec⟩ := stepWord_next hRun
    · exact hFault
    · exact (exec_next_fault hExec).trans hFault
  · refine latchTellsFailure_iff.mpr ⟨fun he => ?_, fun e' he hne => ?_⟩
    · cases he
      exact absurd hRaise (stepWord_ne_pcOutOfRange _ _)
    · cases he
      have hBack : (s.advancePc.latch e).pc - 2#16 = s.pc := BitVec.add_sub_cancel _ _
      rw [hBack]
      exact ⟨hWait, hPc, stepWord_raises_congr (s := s.advancePc) hWait rfl rfl rfl hRaise⟩

/-- No quiet transaction moves PC, the latch or memory but by a CYCLE, and none but RESOLVE_KEY, which does nothing when
no key is waited for, writes what a failing STEP reads. -/
theorem transact_next_latchTellsFailure {m : HostMove} (hQuiet : m.quiet = true) (hLatch : LatchTellsFailure s)
    (h : transact m s = .next t) : LatchTellsFailure t := by
  cases m with
  | cycle => exact cycle_next_latchTellsFailure h
  | step | memLoad => cases hQuiet
  | resolveKey key =>
    obtain ⟨v, hEq⟩ := resolveKey_next h
    refine latchTellsFailure_congr hLatch (by rw [hEq]) (by rw [hEq]) (by rw [hEq]) fun hIdle => ?_
    cases h
    rw [resolveKey_of_idle key hIdle]
    exact ⟨hIdle, rfl, rfl, rfl⟩
  | timerWrite =>
    obtain ⟨dt, st, rfl⟩ := timerWrite_next h
    exact latchTellsFailure_congr hLatch rfl rfl rfl fun hIdle => ⟨hIdle, rfl, rfl, rfl⟩
  | tick | keypadWrite | fbRead | timerRead | statusRead =>
    cases h
    exact latchTellsFailure_congr hLatch rfl rfl rfl fun hIdle => ⟨hIdle, rfl, rfl, rfl⟩

/-- Settles O60: a step is a CYCLE or a quiet transaction, and leaves of the queue what stood behind it. -/
theorem latchTellsWhereAndWhyTheRunStopped : Obligations.LatchTellsWhereAndWhyTheRunStopped := by
  intro s t hLatch hQuiet hRun
  obtain ⟨hQueue, hCycle⟩ | ⟨m, rest, hQueue, hMove⟩ := step_next hRun
  · obtain ⟨-, hSchedule⟩ := transact_next_keeps hCycle
    exact ⟨cycle_next_latchTellsFailure hCycle, by rw [State.quiet, hSchedule]; exact hQuiet⟩
  · obtain ⟨-, hSchedule⟩ := transact_next_keeps hMove
    obtain ⟨hFirst, hRest⟩ : m.quiet = true ∧ rest.all HostMove.quiet = true := by
      simpa [State.quiet, hQueue] using hQuiet
    have hBefore : LatchTellsFailure (s.setSchedule rest) :=
      latchTellsFailure_congr hLatch rfl rfl rfl fun hIdle => ⟨hIdle, rfl, rfl, rfl⟩
    exact ⟨transact_next_latchTellsFailure hFirst hBefore hMove, by rw [State.quiet, hSchedule]; exact hRest⟩

end Sys2Proof.Proofs
end

section
/-! What no instruction reads (R48, R109): the latch, and for all but Cxkk the number of the next draw; then the
obligations. -/

namespace Sys2Proof.Proofs

open Sys2Proof Sys2Proof.Machine

variable {s t : State} {i : Instr}

/-- The state with another latch and another number of the next draw. -/
def withLatchAndDraws (f : Option Err) (d : Nat) (s : State) : State := { s with fault := f, draws := d }

/-- The instruction acts on a state with another latch and draw number as on the state itself. -/
def IgnoresLatchAndDraws (i : Instr) (s : State) (f : Option Err) (d : Nat) : Prop :=
  exec i (withLatchAndDraws f d s) = mapNext (withLatchAndDraws f d) (exec i s)

theorem mapNext_guarded {op : XOp} {x : Reg} {r : Res} (g : State → State) :
    mapNext g (guarded op x s r) = guarded op x s (mapNext g r) := by
  unfold guarded
  split <;> rfl

theorem mapNext_congr {g g' : State → State} {r : Res} (h : ∀ t, r = .next t → g t = g' t) :
    mapNext g r = mapNext g' r := by
  cases r with
  | next t => exact congrArg Host.Outcome.next (h t rfl)
  | fault | refused => rfl

/-- The checks of an instruction read neither element, so only where it completes is there something to show. -/
theorem ignores_of_completes {f : Option Err} {d : Nat}
    (h : ∀ t, exec i s = .next t → exec i (withLatchAndDraws f d s) = .next (withLatchAndDraws f d t)) :
    IgnoresLatchAndDraws i s f d := by
  have hError : errorOf i (withLatchAndDraws f d s) = errorOf i s := errorOf_congr rfl rfl rfl
  obtain ⟨e, hRaise, hExec⟩ | ⟨-, t, hExec⟩ := followsChecks i s
  · rw [IgnoresLatchAndDraws, hExec, exec_of_errorOf_some (hError.trans hRaise)]
    rfl
  · rw [IgnoresLatchAndDraws, hExec, h t hExec]
    rfl

theorem ignores_of_guarded {op : XOp} {x : Reg} {u u' : State} {f : Option Err} {d : Nat}
    (hExec : exec i s = guarded op x s (.next u))
    (hExec' : exec i (withLatchAndDraws f d s) = guarded op x s (.next u'))
    (hRule : u' = withLatchAndDraws f d u) : IgnoresLatchAndDraws i s f d := by
  rw [IgnoresLatchAndDraws, hExec, hExec', mapNext_guarded, hRule]
  rfl

theorem drawRows_withLatchAndDraws (x y : Reg) (n : Nat) (f : Option Err) (d : Nat) :
    (withLatchAndDraws f d s).drawRows x y n = s.drawRows x y n := by
  induction n with
  | zero => rfl
  | succ n ih =>
    simp only [State.drawRows, ih]
    rfl

theorem drawn_withLatchAndDraws (x y : Reg) (n : Fin 16) (f : Option Err) (d : Nat) :
    drawn x y n (withLatchAndDraws f d s) = withLatchAndDraws f d (drawn x y n s) := by
  simp only [drawn, drawRows_withLatchAndDraws]
  rfl

theorem skipIf_withLatchAndDraws (c : Bool) (f : Option Err) (d : Nat) :
    (withLatchAndDraws f d s).skipIf c = withLatchAndDraws f d (s.skipIf c) := by
  cases c <;> rfl

theorem ignoresLatchAndDraws (hNotRnd : ∀ x kk, i ≠ .rnd x kk) (s : State) (f : Option Err) (d : Nat) :
    IgnoresLatchAndDraws i s f d := by
  cases i with
  | rnd x kk => exact absurd rfl (hNotRnd x kk)
  | sys | cls | jp | jpV0 | ldI => rfl
  | call nnn =>
    refine ignores_of_completes fun t hRun => ?_
    obtain ⟨hPlace, rfl⟩ := exec_call_next hRun
    exact exec_call_of_lt (s := withLatchAndDraws f d s) nnn hPlace
  | ret =>
    refine ignores_of_completes fun t hRun => ?_
    obtain ⟨hHeld, rfl⟩ := exec_ret_next hRun
    exact exec_ret_of_pos (s := withLatchAndDraws f d s) hHeld
  | ldF x =>
    refine ignores_of_completes fun t hRun => ?_
    obtain ⟨hPass, hGlyph, rfl⟩ := exec_ldF_next hRun
    exact exec_ldF_of_glyph (s := withLatchAndDraws f d s) hPass hGlyph
  | drw x y n => exact ignores_of_guarded rfl rfl (drawn_withLatchAndDraws x y n f d)
  | seImm | sneImm | seReg | sneReg | skp | sknp => exact ignores_of_guarded rfl rfl (skipIf_withLatchAndDraws _ f d)
  | ldImm | addImm | ldReg | orReg | andReg | xorReg | addReg | sub | shr | subn | shl | ldVxDt | ldVxK
  | ldDtVx | ldStVx | addI | ldB | ldMemVx | ldVxMem => exact ignores_of_guarded rfl rfl rfl

theorem exec_rnd (x : Reg) (kk : Byte) (s : State) :
    exec (.rnd x kk) s = guarded .rnd x s (.next (rndInto x kk (Config.rnd s.draws) s).spendDraw) := rfl

/-- The latch alone is ignored by every instruction: Cxkk keeps the draw number it reads. -/
theorem exec_withLatch (i : Instr) (s : State) (f : Option Err) :
    exec i { s with fault := f } = mapNext (fun t => { t with fault := f }) (exec i s) := by
  by_cases hRnd : ∃ x kk, i = .rnd x kk
  · obtain ⟨x, kk, rfl⟩ := hRnd
    rw [exec_rnd x kk s, mapNext_guarded]
    rfl
  · have hNotRnd : ∀ x kk, i ≠ .rnd x kk := fun x kk h => hRnd ⟨x, kk, h⟩
    refine (ignoresLatchAndDraws hNotRnd s f s.draws).trans (mapNext_congr fun t hRun => ?_)
    rw [withLatchAndDraws, ← exec_next_draws hRun hNotRnd]

theorem stepWord_withLatch (w : Word) (s : State) (f : Option Err) :
    stepWord w { s with fault := f } = mapNext (fun t => { t with fault := f }) (stepWord w s) := by
  by_cases hWait : s.wait = .idle
  · cases hDecode : decode w with
    | error e =>
      rw [stepWord_of_decode_error hWait hDecode]
      exact stepWord_of_decode_error (s := { s with fault := f }) hWait hDecode
    | ok i =>
      rw [stepWord_of_decode_ok hWait hDecode, ← exec_withLatch]
      exact stepWord_of_decode_ok (s := { s with fault := f }) hWait hDecode
  · rw [stepWord_of_not_idle w hWait]
    exact stepWord_of_not_idle (s := { s with fault := f }) w hWait

/-- A transaction that answers a next state keeps a latched fault: a CYCLE answers none, a STEP does not write it. -/
theorem transact_next_keeps_latched {m : HostMove} {e : Err} (hFault : s.fault = some e)
    (h : transact m s = .next t) : t.fault = some e := by
  cases m with
  | cycle => exact absurd h (cycle_held (.inl (by simp [hFault])))
  | step w =>
    obtain ⟨-, rfl⟩ | ⟨-, i, -, hExec⟩ := stepWord_next h
    · exact hFault
    · exact (exec_next_fault hExec).trans hFault
  | tick | timerWrite | keypadWrite | resolveKey | memLoad | fbRead | timerRead | statusRead =>
    obtain ⟨_, _, _, _, _, _, rfl⟩ := transact_next_of_not_executes rfl h
    exact hFault

/-! ## The obligations -/

/-- Settles O47: an instruction other than Cxkk ignores the draw number, and keeps the latch. -/
theorem onlyRandomReadsTheDraw : Obligations.OnlyRandomReadsTheDraw := by
  intro i s d hNotRnd
  refine (ignoresLatchAndDraws hNotRnd s s.fault d).trans (mapNext_congr fun t hRun => ?_)
  rw [withLatchAndDraws, ← exec_next_fault hRun]

/-- Settles O14, clause by clause. -/
theorem faultLatchRule : Obligations.FaultLatchRule :=
  ⟨fun _ => cycle_of_not_fetchable, fun _ _ => cycle_of_raise, fun _ _ hFault => cycle_held (.inl hFault),
    fun _ _ _ _ hFault hRun => transact_next_keeps_latched hFault hRun, fun _ => rfl, stepWord_withLatch⟩

end Sys2Proof.Proofs
end

section
/-! Instructions that write one register (R120 to R126, R210, R216), VF as destination (R122), and the subtract flag
under NO_BORROW (R129); then the obligations. -/

namespace Sys2Proof.Proofs

open Sys2Proof Sys2Proof.Machine

section
variable (x y : Reg) (kk : Byte) (s : State)

theorem exec_ldImm : exec (.ldImm x kk) s = guarded .ldImm x s (.next (s.setV x kk)) := rfl
theorem exec_addImm : exec (.addImm x kk) s = guarded .addImm x s (.next (s.setV x (s.getV x + kk))) := rfl
theorem exec_ldReg : exec (.ldReg x y) s = guarded .ldReg x s (.next (s.setV x (s.getV y))) := rfl
theorem exec_orReg : exec (.orReg x y) s = guarded .orReg x s (.next (s.setV x (s.getV x ||| s.getV y))) := rfl
theorem exec_andReg : exec (.andReg x y) s = guarded .andReg x s (.next (s.setV x (s.getV x &&& s.getV y))) := rfl
theorem exec_xorReg : exec (.xorReg x y) s = guarded .xorReg x s (.next (s.setV x (s.getV x ^^^ s.getV y))) := rfl

end

variable {x y : Reg} {s : State} {i : Instr} {op : XOp}

/-- A checked write of one register completes with the byte there and nothing else changed. -/
theorem setV_completes {b : Byte} (hExec : exec i s = guarded op x s (.next (s.setV x b)))
    (hPass : s.blocked op x = false) :
    ∃ t, exec i s = .next t ∧ t.getV x = b ∧ Unchanged { regs := [x] } s t :=
  ⟨s.setV x b, hExec.trans (guarded_of_pass hPass), getV_setV_self, unchanged_setV x b⟩

/-- Settles O17: the rule is one write of Vx. -/
theorem loadImmediate : Obligations.LoadImmediate := by
  intro x kk s
  exact ⟨ruleHead_of_guarded (encodesItsRow (.ldImm x kk)) rfl rfl (exec_ldImm x kk s),
    setV_completes (exec_ldImm x kk s)⟩

/-- Settles O18: the byte sum is the sum modulo 256, and Vx is the one register written. -/
theorem addImmediateWritesNoFlag : Obligations.AddImmediateWritesNoFlag := by
  refine fun x kk s => ⟨?_, fun hPass => ?_⟩
  · exact ruleHead_of_guarded (encodesItsRow (.addImm x kk)) rfl rfl (exec_addImm x kk s)
  · obtain ⟨t, hRun, hResult, hFrame⟩ := setV_completes (exec_addImm x kk s) hPass
    exact ⟨t, hRun, by rw [hResult, BitVec.toNat_add], hFrame⟩

/-- Settles O19: each of the four is one write of Vx, by a bitwise operation of two bytes. -/
theorem copyAndLogicGroup : Obligations.CopyAndLogicGroup := by
  refine fun x y s =>
    ⟨?_, ?_, ?_, ?_, setV_completes (exec_ldReg x y s), fun hPass => ?_, fun hPass => ?_, fun hPass => ?_⟩
  · exact ruleHead_of_guarded (encodesItsRow (.ldReg x y)) rfl rfl (exec_ldReg x y s)
  · exact ruleHead_of_guarded (encodesItsRow (.orReg x y)) rfl rfl (exec_orReg x y s)
  · exact ruleHead_of_guarded (encodesItsRow (.andReg x y)) rfl rfl (exec_andReg x y s)
  · exact ruleHead_of_guarded (encodesItsRow (.xorReg x y)) rfl rfl (exec_xorReg x y s)
  · obtain ⟨t, hRun, hResult, hFrame⟩ := setV_completes (exec_orReg x y s) hPass
    exact ⟨t, hRun, fun b _ => by rw [hResult, BitVec.getLsbD_or], hFrame⟩
  · obtain ⟨t, hRun, hResult, hFrame⟩ := setV_completes (exec_andReg x y s) hPass
    exact ⟨t, hRun, fun b _ => by rw [hResult, BitVec.getLsbD_and], hFrame⟩
  · obtain ⟨t, hRun, hResult, hFrame⟩ := setV_completes (exec_xorReg x y s) hPass
    exact ⟨t, hRun, fun b _ => by rw [hResult, BitVec.getLsbD_xor], hFrame⟩

/-! ## The subtract flag under NO_BORROW -/

/-- R129: the NO_BORROW flag is the sign of the true difference, zero counted as positive. -/
theorem subFlag_noBorrow_eq (a b : Byte) :
    subFlag .noBorrow a b = if (a.toNat : Int) - b.toNat ≥ 0 then 1#8 else 0#8 := by
  have hSign : (a.toNat : Int) - b.toNat ≥ 0 ↔ a.toNat ≥ b.toNat := by omega
  simp only [subFlag, flagByte, decide_eq_true_eq, hSign]

/-- D10: the two readings part at a difference of zero. -/
theorem subFlag_modes_ne_iff (a b : Byte) : subFlag .strict a b ≠ subFlag .noBorrow a b ↔ a = b := by
  rw [subFlag_strict_eq, subFlag_noBorrow_eq, ← BitVec.toNat_inj]
  split_ifs <;> simp <;> omega

/-- R128 and R131 under NO_BORROW, with `a` the minuend. -/
theorem noBorrow_subtraction_completes {a b : Byte} (hx : x ≠ vf) (hMode : s.params.borrowMode = .noBorrow)
    (hExec : exec i s = guarded op x s (.next (s.setVFlag x (a - b) (subFlag s.params.borrowMode a b)))) :
    ∃ t, exec i s = .next t ∧ (t.getV x).toNat = (a.toNat + 256 - b.toNat) % 256
      ∧ t.getV vf = (if (a.toNat : Int) - b.toNat ≥ 0 then 1#8 else 0#8) ∧ Unchanged { regs := [x, vf] } s t := by
  rw [hMode] at hExec
  obtain ⟨t, hRun, hResult, hFlag, hFrame⟩ := flagWriter_completes hx hExec
  exact ⟨t, hRun, by rw [hResult, toNat_byte_sub], by rw [hFlag, subFlag_noBorrow_eq], hFrame⟩

/-- Settles O22: both instructions are the one subtraction, with the operands exchanged. -/
theorem subtractUnderNoBorrow : Obligations.SubtractUnderNoBorrow :=
  ⟨subFlag_modes_ne_iff, fun x y s hx hMode =>
    ⟨noBorrow_subtraction_completes hx hMode (exec_sub x y s),
      noBorrow_subtraction_completes hx hMode (exec_subn x y s)⟩⟩

/-! ## VF as an operand (R122) -/

/-- R108: the operand check is the first one. -/
theorem exec_of_blocked (hOperand : xOperand i = some (op, x)) (hBlocked : s.blocked op x = true) :
    exec i s = .fault (.raised .invalidOperand) := by
  refine exec_of_errorOf_some ?_
  simp only [errorOf, hOperand]
  exact if_pos (blocked_eq_true.mp hBlocked)

/-- With VF as destination, the flag is written over the result. -/
theorem flagWriter_of_vf {b c : Byte} (hGuards : s.params.guards op = false)
    (hExec : exec i s = guarded op vf s (.next (s.setVFlag vf b c))) : exec i s = .next (s.setV vf c) := by
  rw [hExec, guarded_of_pass (by simp [State.blocked, hGuards]), setVFlag_vf]

theorem completes_of_ne_vf {u : State} (hx : x ≠ vf) (hExec : exec i s = guarded op x s (.next u)) :
    ∃ t, exec i s = .next t :=
  ⟨u, hExec.trans (guarded_of_pass (blocked_of_ne hx))⟩

/-- Settles O24: the operand check looks at x only, and comes before a rule that completes. -/
theorem eightXyGroupRule : Obligations.EightXyGroupRule := by
  refine ⟨fun op => ?_, fun i op s hOperand hGuards => ?_, fun x s hx i hi => ?_, fun y s => ⟨?_, ?_, ?_, ?_, ?_⟩⟩
  · exact List.contains_iff_mem
  · exact exec_of_blocked hOperand (blocked_eq_true.mpr ⟨rfl, hGuards⟩)
  · simp only [List.mem_cons, List.not_mem_nil, or_false] at hi
    obtain rfl | rfl | rfl | rfl | rfl | rfl | rfl | rfl | rfl := hi
    · exact completes_of_ne_vf hx (exec_ldReg x vf s)
    · exact completes_of_ne_vf hx (exec_orReg x vf s)
    · exact completes_of_ne_vf hx (exec_andReg x vf s)
    · exact completes_of_ne_vf hx (exec_xorReg x vf s)
    · exact completes_of_ne_vf hx (exec_addReg x vf s)
    · exact completes_of_ne_vf hx (exec_sub x vf s)
    · exact completes_of_ne_vf hx (exec_shr x vf s)
    · exact completes_of_ne_vf hx (exec_subn x vf s)
    · exact completes_of_ne_vf hx (exec_shl x vf s)
  · exact fun hGuards => flagWriter_of_vf hGuards (exec_addReg vf y s)
  · exact fun hGuards => flagWriter_of_vf hGuards (exec_sub vf y s)
  · exact fun hGuards => flagWriter_of_vf hGuards (exec_shr vf y s)
  · exact fun hGuards => flagWriter_of_vf hGuards (exec_subn vf y s)
  · exact fun hGuards => flagWriter_of_vf hGuards (exec_shl vf y s)

/-! ## Timers and random -/

section
variable (x : Reg) (s : State)

theorem exec_ldVxDt : exec (.ldVxDt x) s = guarded .ldVxDt x s (.next (s.setV x s.dt)) := rfl
theorem exec_ldDtVx : exec (.ldDtVx x) s = guarded .ldDtVx x s (.next (s.setDt (s.getV x))) := rfl
theorem exec_ldStVx : exec (.ldStVx x) s = guarded .ldStVx x s (.next (s.setSt (s.getV x))) := rfl

end

/-- Settles O44: each is one write, of Vx, DT or ST. -/
theorem timerInstructions : Obligations.TimerInstructions := by
  refine fun x s => ⟨?_, ?_, ?_, setV_completes (exec_ldVxDt x s), fun hPass => ?_, fun hPass => ?_⟩
  · exact ruleHead_of_guarded (encodesItsRow (.ldVxDt x)) rfl rfl (exec_ldVxDt x s)
  · exact ruleHead_of_guarded (encodesItsRow (.ldDtVx x)) rfl rfl (exec_ldDtVx x s)
  · exact ruleHead_of_guarded (encodesItsRow (.ldStVx x)) rfl rfl (exec_ldStVx x s)
  · exact ⟨_, (exec_ldDtVx x s).trans (guarded_of_pass hPass), rfl, unchanged_setDt _⟩
  · exact ⟨_, (exec_ldStVx x s).trans (guarded_of_pass hPass), rfl, unchanged_setSt _⟩

/-- Settles O46: the register takes the AND of the draw and kk, and the draw is spent. -/
theorem randomIsTheDrawMaskedByKk : Obligations.RandomIsTheDrawMaskedByKk := by
  refine fun x kk s => ⟨?_, fun hPass => ?_⟩
  · exact ruleHead_of_guarded (encodesItsRow (.rnd x kk)) rfl rfl (exec_rnd x kk s)
  · have hResult : (rndInto x kk (Config.rnd s.draws) s).spendDraw.getV x = Config.rnd s.draws &&& kk := getV_setV_self
    exact ⟨_, (exec_rnd x kk s).trans (guarded_of_pass hPass), fun b _ => by rw [hResult, BitVec.getLsbD_and], rfl,
      unchanged_rnd x _⟩

end Sys2Proof.Proofs
end

section
/-! Jumps, returns and skips (R160 to R174): where a skip leaves PC, then the obligations. -/

namespace Sys2Proof.Proofs

open Sys2Proof Sys2Proof.Machine

variable {s : State}

theorem exec_jpV0 (nnn : Addr12) (s : State) :
    exec (.jpV0 nnn) s = .next (s.setPc (zextAddr nnn + zextByte (s.getV 0))) := rfl

/-- R83. -/
theorem toNat_zextByte (b : Byte) : (zextByte b).toNat = b.toNat :=
  BitVec.toNat_setWidth_of_le (by decide)

/-- Settles O31: a 12-bit and an 8-bit number have a sum of less than 2^16, so the 16-bit sum is not cut. -/
theorem jumpPlusV0SetsPc : Obligations.JumpPlusV0SetsPc := by
  intro nnn s
  have hTarget : (zextAddr nnn + zextByte (s.getV 0)).toNat = nnn.toNat + (s.getV 0).toNat := by
    have hAddr := nnn.isLt
    have hByte := (s.getV 0).isLt
    rw [BitVec.toNat_add, toNat_zextAddr, toNat_zextByte]
    omega
  exact ⟨encode_and_row_mask (encodesItsRow (.jpV0 nnn)) rfl, _, exec_jpV0 nnn s, hTarget, unchanged_setPc _⟩

/-- Settles O34: the call saves PC in the entry at the old SP, which is the entry below the SP that it leaves. -/
theorem returnComesBackBehindTheCall : Obligations.ReturnComesBackBehindTheCall := by
  intro nnn s hPlace
  refine ⟨_, exec_call_of_lt nnn hPlace, fun u hSp hEntry => ?_⟩
  have hSpVal : u.sp.val = s.sp.val + 1 := by rw [hSp, setPc_sp, push_sp]
  have hHeld : 0 < u.sp.val := by omega
  have hTop : u.top hHeld = u.stack[s.sp.val] := top_of_sp_eq (k := ⟨s.sp.val, hPlace⟩) hSpVal hHeld
  have hSaved : u.stack[s.sp.val] = s.pc := by
    rw [hEntry, setPc_stack]
    exact (getElem_push_stack s.pc hPlace ⟨s.sp.val, hPlace⟩).trans (if_pos rfl)
  exact ⟨_, exec_ret_of_pos hHeld, hTop.trans hSaved, Fin.ext (by rw [setPc_sp, pop_sp, hSpVal, Nat.add_sub_cancel])⟩

/-! ## Skips -/

section
variable (x y : Reg) (kk : Byte) (s : State)

theorem exec_seImm : exec (.seImm x kk) s = guarded .seImm x s (.next (s.skipIf (s.getV x == kk))) := rfl
theorem exec_sneImm : exec (.sneImm x kk) s = guarded .sneImm x s (.next (s.skipIf (s.getV x != kk))) := rfl
theorem exec_seReg : exec (.seReg x y) s = guarded .seReg x s (.next (s.skipIf (s.getV x == s.getV y))) := rfl
theorem exec_sneReg : exec (.sneReg x y) s = guarded .sneReg x s (.next (s.skipIf (s.getV x != s.getV y))) := rfl
theorem exec_skp : exec (.skp x) s = guarded .skp x s (.next (s.skipIf (s.pressed (s.getV x)))) := rfl
theorem exec_sknp : exec (.sknp x) s = guarded .sknp x s (.next (s.skipIf (!s.pressed (s.getV x)))) := rfl

end

/-- R165. -/
theorem toNat_pc_skipIf (c : Bool) : (s.skipIf c).pc.toNat = (s.pc.toNat + if c = true then 2 else 0) % 65536 := by
  have hPc := s.pc.isLt
  cases c with
  | true => exact BitVec.toNat_add s.pc 2#16
  | false => exact (Nat.mod_eq_of_lt hPc).symm

theorem skip_completes {i : Instr} {op : XOp} {x : Reg} {c : Bool}
    (hExec : exec i s = guarded op x s (.next (s.skipIf c))) (hPass : s.blocked op x = false) :
    ∃ t, exec i s = .next t ∧ t.pc.toNat = (s.pc.toNat + if c = true then 2 else 0) % 65536
      ∧ Unchanged { pc := true } s t :=
  ⟨_, hExec.trans (guarded_of_pass hPass), toNat_pc_skipIf c, unchanged_skipIf c⟩

theorem skip_moves_or_stays {i : Instr} {op : XOp} {x : Reg} {c : Bool}
    (hExec : exec i s = guarded op x s (.next (s.skipIf c))) (hPass : s.blocked op x = false) :
    exec i s = .next s ∨ exec i s = .next { s with pc := BitVec.ofNat 16 (s.pc.toNat + 2) } := by
  have hRun := hExec.trans (guarded_of_pass hPass)
  cases c with
  | false => exact .inl hRun
  | true =>
    have hPc : s.pc + 2#16 = BitVec.ofNat 16 (s.pc.toNat + 2) := by rw [BitVec.ofNat_add, BitVec.ofNat_toNat]; rfl
    rw [hRun, State.skipIf, if_pos rfl, State.advancePc, hPc]
    exact .inr rfl

/-- Settles O35: the six are one form. -/
theorem skipsMovePcByOneWidthOrWriteNothing : Obligations.SkipsMovePcByOneWidthOrWriteNothing := by
  intro x y kk s op i hi hOperand hPass
  simp only [List.mem_cons, List.not_mem_nil, or_false] at hi
  obtain rfl | rfl | rfl | rfl | rfl | rfl := hi <;> cases hOperand
  · exact skip_moves_or_stays (exec_seImm x kk s) hPass
  · exact skip_moves_or_stays (exec_sneImm x kk s) hPass
  · exact skip_moves_or_stays (exec_seReg x y s) hPass
  · exact skip_moves_or_stays (exec_sneReg x y s) hPass
  · exact skip_moves_or_stays (exec_skp x s) hPass
  · exact skip_moves_or_stays (exec_sknp x s) hPass

/-- R166, R168. -/
theorem skip_if_eq_completes {i : Instr} {op : XOp} {x : Reg} {a b : Byte}
    (hExec : exec i s = guarded op x s (.next (s.skipIf (a == b)))) (hPass : s.blocked op x = false) :
    ∃ t, exec i s = .next t ∧ t.pc.toNat = (s.pc.toNat + if a = b then 2 else 0) % 65536
      ∧ Unchanged { pc := true } s t := by
  simpa only [beq_iff_eq] using skip_completes hExec hPass

/-- R167, R169. -/
theorem skip_if_ne_completes {i : Instr} {op : XOp} {x : Reg} {a b : Byte}
    (hExec : exec i s = guarded op x s (.next (s.skipIf (a != b)))) (hPass : s.blocked op x = false) :
    ∃ t, exec i s = .next t ∧ t.pc.toNat = (s.pc.toNat + if a = b then 0 else 2) % 65536
      ∧ Unchanged { pc := true } s t := by
  simpa only [bne_iff_ne, ne_eq, ite_not] using skip_completes hExec hPass

/-- Settles O36: two skips on equality and two on inequality. -/
theorem comparingSkips : Obligations.ComparingSkips := by
  intro x y kk s
  refine ⟨?_, ?_, ?_, ?_, skip_if_eq_completes (exec_seImm x kk s), skip_if_ne_completes (exec_sneImm x kk s),
    skip_if_eq_completes (exec_seReg x y s), skip_if_ne_completes (exec_sneReg x y s)⟩
  · exact ruleHead_of_guarded (encodesItsRow (.seImm x kk)) rfl rfl (exec_seImm x kk s)
  · exact ruleHead_of_guarded (encodesItsRow (.sneImm x kk)) rfl rfl (exec_sneImm x kk s)
  · exact ruleHead_of_guarded (encodesItsRow (.seReg x y)) rfl rfl (exec_seReg x y s)
  · exact ruleHead_of_guarded (encodesItsRow (.sneReg x y)) rfl rfl (exec_sneReg x y s)

/-! ## The key test (R172) -/

/-- For a key number, the test is its bit of the mask. -/
theorem pressed_of_key {b : Byte} {k : Fin 16} (hKey : b.toNat = k.val) : s.pressed b = s.keypad.getLsbD k.val := by
  have hSmall : k.val < 16 := k.isLt
  simp [State.pressed, hKey, hSmall]

/-- D20: no other byte names a pressed key. -/
theorem pressed_of_ge {b : Byte} (hNoKey : b.toNat ≥ 16) : s.pressed b = false := by
  have hLarge : ¬ b.toNat < 16 := by omega
  simp [State.pressed, hLarge]

theorem skipIf_pc_of_taken {c : Bool} (h : c = true) : (s.skipIf c).pc.toNat = (s.pc.toNat + 2) % 65536 := by
  rw [toNat_pc_skipIf, if_pos h]

theorem skipIf_pc_of_not_taken {c : Bool} (h : c = false) : (s.skipIf c).pc = s.pc := by
  rw [h]
  rfl

/-- Settles O37: SKP skips on the key test and SKNP on its negation. -/
theorem keySkips : Obligations.KeySkips := by
  refine fun x s => ⟨?_, ?_, fun hPass => ?_, fun hPass => ?_⟩
  · exact ruleHead_of_guarded (encodesItsRow (.skp x)) rfl rfl (exec_skp x s)
  · exact ruleHead_of_guarded (encodesItsRow (.sknp x)) rfl rfl (exec_sknp x s)
  · refine ⟨_, (exec_skp x s).trans (guarded_of_pass hPass), fun k hKey hDown => ?_, fun k hKey hUp => ?_,
      fun hNoKey => ?_, unchanged_skipIf _⟩
    · exact skipIf_pc_of_taken ((pressed_of_key hKey).trans hDown)
    · exact skipIf_pc_of_not_taken ((pressed_of_key hKey).trans hUp)
    · exact skipIf_pc_of_not_taken (pressed_of_ge hNoKey)
  · refine ⟨_, (exec_sknp x s).trans (guarded_of_pass hPass), fun k hKey hDown => ?_, fun k hKey hUp => ?_,
      fun hNoKey => ?_, unchanged_skipIf _⟩
    · exact skipIf_pc_of_not_taken (congrArg Bool.not ((pressed_of_key hKey).trans hDown))
    · exact skipIf_pc_of_taken (congrArg Bool.not ((pressed_of_key hKey).trans hUp))
    · exact skipIf_pc_of_taken (congrArg Bool.not (pressed_of_ge hNoKey))

end Sys2Proof.Proofs
end

section
/-! The index register and memory (R190 to R197, R74), then the obligations. -/

namespace Sys2Proof.Proofs

open Sys2Proof Sys2Proof.Machine

variable {s : State}

theorem exec_ldI (nnn : Addr12) (s : State) : exec (.ldI nnn) s = .next (s.setI (zextAddr nnn)) := rfl

theorem exec_addI (x : Reg) (s : State) :
    exec (.addI x) s = guarded .addI x s (.next (s.setI (s.i + zextByte (s.getV x)))) := rfl

/-- R46: a loaded byte reads back. -/
theorem readByte_memLoad (hMem : MemoryCanonical s) (a : Addr12) (b : Byte) :
    (s.memLoad a b).readByte a.toNat = b :=
  (readByte_of_lt _ a.isLt).trans (Memory.read_write_self hMem)

/-! ## The obligations -/

/-- Settles O38: each is one write of I, modulo 2^16, and Fx29 has no glyph above 0xF. -/
theorem indexRegisterWrites : Obligations.IndexRegisterWrites := by
  refine fun nnn x s => ⟨?_, ?_, ?_, ?_, fun hPass => ?_, fun hPass hGlyph => ?_, exec_ldF_of_no_glyph⟩
  · exact encode_and_row_mask (encodesItsRow (.ldI nnn)) rfl
  · exact ruleHead_of_guarded (encodesItsRow (.addI x)) rfl rfl (exec_addI x s)
  · exact ruleHead_of_guarded (encodesItsRow (.ldF x)) rfl rfl (exec_ldF x s)
  · exact ⟨_, exec_ldI nnn s, toNat_zextAddr nnn, unchanged_setI _⟩
  · refine ⟨_, (exec_addI x s).trans (guarded_of_pass hPass), ?_, unchanged_setI _⟩
    rw [setI_i, BitVec.toNat_add, toNat_zextByte]
  · exact ⟨_, exec_ldF_of_glyph hPass hGlyph, BitVec.toNat_ofNat _ _, unchanged_setI _⟩

/-- Settles O42: the load reads the addresses of the store, whose bytes memory still holds. -/
theorem storeThenLoadRestoresRegisters : Obligations.StoreThenLoadRestoresRegisters := by
  intro x s hMem hStore hLoad
  refine ⟨_, (exec_ldMemVx x s).trans (guarded_of_pass hStore), fun u hSameMem hSameI hSameParams => ?_⟩
  have hPass : u.blocked .ldVxMem x = false := (blocked_congr hSameParams _ _).trans hLoad
  refine ⟨_, (exec_ldVxMem x u).trans (guarded_of_pass hPass), fun k hk => ?_, hSameI⟩
  have hAddr : u.i = s.i := hSameI
  rw [getV_loadRegs, if_pos hk, hAddr, readByte_congr hSameMem, readByte_store_regsTo s.i hMem hk]

/-- Settles O43: a byte that reads back is what a fetch of its address reads. -/
theorem storedBytesAreFetched : Obligations.StoredBytesAreFetched := by
  refine fun s hMem => ⟨fun x hPass => ?_, fun x hPass => ?_, fun a b => ?_⟩
  · exact ⟨_, (exec_ldMemVx x s).trans (guarded_of_pass hPass),
      fun k hk => fetchReads_of_readByte (readByte_store_regsTo s.i hMem hk)⟩
  · have hDigit : ∀ j (hj : j < (bcdDigits (s.getV x)).length),
        FetchReads (s.storeBytes s.i (bcdDigits (s.getV x))) (effAddr s.i j) (bcdDigits (s.getV x))[j] := fun j hj =>
      fetchReads_of_readByte (readByte_storeBytes hMem hj (show 3 ≤ 4096 by decide))
    have hLength : (bcdDigits (s.getV x)).length = 3 := rfl
    exact ⟨_, (exec_ldB x s).trans (guarded_of_pass hPass), hDigit 0 (by omega), hDigit 1 (by omega),
      hDigit 2 (by omega)⟩
  · exact ⟨_, rfl, fetchReads_of_readByte (readByte_memLoad hMem a b)⟩

end Sys2Proof.Proofs
end

section
/-! The display clear, RESET, the transactions of the host and the boot sequence (R40 to R49, R146, R215, R246, R260,
R262), and the word that withFetchWord places; then the obligations. -/

namespace Sys2Proof.Proofs

open Sys2Proof Sys2Proof.Machine

variable {s t : State}

/-- Settles O29: CLS is one write of the framebuffer. -/
theorem clearDisplayClearsEveryRow : Obligations.ClearDisplayClearsEveryRow := by
  refine ⟨rfl, fun s => ⟨s.setFb (Vector.replicate 32 0#64), rfl, fun r => ?_, unchanged_setFb _⟩⟩
  rw [State.fbReadRow, setFb_fb, Vector.getElem_replicate]

/-! ## RESET -/

/-- Settles O8: the vectors are filled with zeros and memory lists no byte. -/
theorem resetLeavesTheStatedValues : Obligations.ResetLeavesTheStatedValues := by
  refine ⟨rfl, fun p s hReset => ?_⟩
  subst hReset
  refine ⟨fun r => ?_, rfl, rfl, rfl, fun k => ?_, fun _ => rfl, fun r => ?_, rfl, rfl, rfl⟩
  · exact Vector.getElem_replicate r.isLt
  · exact Vector.getElem_replicate k.isLt
  · exact Vector.getElem_replicate r.isLt

/-- Settles O58: memory, latch and queue are empty. -/
theorem resetMeetsTheInvariants : Obligations.ResetMeetsTheInvariants :=
  fun _ => ⟨rfl, latchTellsFailure_of_silent rfl, rfl⟩

/-! ## Host transactions -/

/-- Settles O48: the marker says which register takes the key, or that none does. -/
theorem resolveKeyEndsTheWait : Obligations.ResolveKeyEndsTheWait := by
  refine fun s key => ⟨fun r hWait => ?_, fun hWait => congrArg Host.Outcome.next (resolveKey_of_idle key hWait)⟩
  refine ⟨_, congrArg Host.Outcome.next (resolveKey_of_waiting key hWait), getV_setV_self, rfl, ?_⟩
  obtain ⟨hRegs, -⟩ := unchanged_setV (s := s) r key
  exact ⟨hRegs, by simp [State.readByte]⟩

theorem toNat_tickDown (b : Byte) : (tickDown b).toNat = b.toNat - 1 := by
  have hByte := b.isLt
  unfold tickDown
  split_ifs with hZero
  · rw [hZero]
    rfl
  · have hPos : b.toNat ≠ 0 := fun h => hZero (BitVec.eq_of_toNat_eq h)
    rw [BitVec.toNat_sub]
    simp only [BitVec.toNat_ofNat]
    omega

/-- Settles O49: TICK is a write of each timer. -/
theorem tickDecrementsNonzeroTimers : Obligations.TickDecrementsNonzeroTimers := by
  refine fun s => ⟨s.tick, rfl, toNat_tickDown s.dt, toNat_tickDown s.st, ?_⟩
  simp [Unchanged, State.tick, State.timerWrite, State.getV, State.readByte]

/-- Settles O50: each port is one update of the state, or none. -/
theorem portsWriteOneElement : Obligations.PortsWriteOneElement := by
  intro s b mask a
  exact ⟨⟨s.setDt b, rfl, rfl, unchanged_setDt b⟩, ⟨s.setSt b, rfl, rfl, unchanged_setSt b⟩,
    ⟨s.setKeypad mask, rfl, rfl, unchanged_setKeypad mask⟩,
    ⟨s.memLoad a b, rfl, fun hMem => readByte_memLoad hMem a b, unchanged_memLoad a b⟩, rfl, rfl, rfl⟩

/-! ## The placed word -/

theorem tableWord_toNat (w : Word) : tableWord 16 w.toNat = w := by
  rw [tableWord, Nat.mod_eq_of_lt w.isLt, BitVec.ofNat_toNat, BitVec.setWidth_eq]

theorem fetchable_placeWord_pc (s : State) (w : Word) : fetchable (s.placeWord w).pc = true := by
  rw [placeWord_pc]
  split_ifs with hPc
  · exact hPc
  · decide

theorem placeWord_mem (s : State) (w : Word) :
    (s.placeWord w).mem =
      (s.mem.write (effAddr (s.placeWord w).pc 0) (hiByte w)).write (effAddr (s.placeWord w).pc 1) (loByte w) := rfl

/-- The two bytes placed have two addresses, so both read back. -/
theorem fetchWord_placeWord (hMem : MemoryCanonical s) (w : Word) : (s.placeWord w).fetchWord = w := by
  have hApart : effAddr (s.placeWord w).pc 0 ≠ effAddr (s.placeWord w).pc 1 := fun h =>
    absurd (effAddr_inj (n := 2) (by decide) (by decide) (by decide) h) (by decide)
  have hHi : (s.placeWord w).readByte (s.placeWord w).pc.toNat = hiByte w := by
    rw [State.readByte, placeWord_mem]
    exact (Memory.read_write_of_ne hApart).trans (Memory.read_write_self hMem)
  have hLo : (s.placeWord w).readByte ((s.placeWord w).pc.toNat + 1) = loByte w := by
    rw [State.readByte, placeWord_mem]
    exact Memory.read_write_self (Memory.wf_write (effAddr_lt _ 0) hMem)
  rw [State.fetchWord, State.wordAt, hHi, hLo, wordOfBytes_bytes]

/-- Settles O52: the placing leaves nothing that keeps the CYCLE from running. -/
theorem placedWordIsRunNext : Obligations.PlacedWordIsRunNext := by
  rintro s w hMem p rfl
  rw [State.withFetchWord, tableWord_toNat]
  have hWord : (s.placeWord w).fetchWord = w := fetchWord_placeWord hMem w
  refine ⟨hWord, (step_of_empty rfl).trans ((cycle_runs rfl rfl (fetchable_placeWord_pc s w)).trans ?_)⟩
  rw [hWord]

/-! ## The boot sequence -/

theorem stepsFrom_succ_of_next {n : Nat} (h : step s = .next t) : stepsFrom (n + 1) s = stepsFrom n t := by
  simp [stepsFrom, h]

/-- The queued loads of an image are one store of it. -/
theorem stepsFrom_loadMoves {base : Word} {bs : List Byte} {k n : Nat} {rest : List HostMove}
    (hQueue : s.schedule = loadMoves base k bs ++ rest) :
    stepsFrom ((loadMoves base k bs).length + n) s
      = stepsFrom n { s with mem := storeFrom base k bs s.mem, schedule := rest } := by
  induction bs generalizing k s with
  | nil =>
    have hEmpty : s.schedule = rest := hQueue
    rw [← hEmpty]
    exact congrArg (stepsFrom · s) (Nat.zero_add n)
  | cons b bs ih =>
    have hAddr : (BitVec.ofNat 12 (effAddr base k)).toNat = effAddr base k :=
      Nat.mod_eq_of_lt (effAddr_lt base k)
    have hLength : (loadMoves base k (b :: bs)).length + n = (loadMoves base (k + 1) bs).length + n + 1 :=
      Nat.add_right_comm _ 1 n
    rw [hLength, stepsFrom_succ_of_next (step_of_queued hQueue), ih rfl, memLoad_mem, hAddr]
    rfl

/-- R262: the state in which the queued loads of the launch image have run. -/
def booted (p : Params) (rom : List Byte) : State :=
  ((State.resetWith p).storeBytes p.entryPc rom).storeBytes p.fontBase p.fontData

theorem stepsFrom_boot (p : Params) (rom : List Byte) :
    stepsFrom (bootMoves p rom).length (State.boot p rom) = .next (booted p rom) := by
  rw [bootMoves, List.length_append, stepsFrom_loadMoves rfl, ← Nat.add_zero (loadMoves p.fontBase 0 _).length,
    stepsFrom_loadMoves (List.append_nil _).symm]
  rfl

theorem readByte_eq_effAddr (s : State) (base : Word) (k : Nat) :
    s.readByte (base.toNat + k) = s.readByte (effAddr base k) := by
  rw [State.readByte, State.readByte, effAddr_mod, effAddr]

/-- Two stores change no byte that neither reaches. -/
theorem unchanged_storeBytes_twice (a b : Word) (as bs : List Byte) :
    Unchanged { mem := (List.range as.length).map (effAddr a) ++ (List.range bs.length).map (effAddr b) } s
      ((s.storeBytes a as).storeBytes b bs) := by
  refine ⟨fun r _ => rfl, fun k hk => ?_, by simp⟩
  obtain ⟨hFirst, hSecond⟩ := not_or.mp (List.mem_append.not.mp hk)
  rw [readByte_storeBytes_other hSecond, readByte_storeBytes_other hFirst]

/-- Settles O9: the loads are two stores, the font's last, each of which reads back where no later one reaches. -/
theorem bootLoadsTheLaunchImage : Obligations.BootLoadsTheLaunchImage := by
  intro p rom hRom hFont
  have hReset : MemoryCanonical (State.resetWith p) := rfl
  have hLoaded : ((State.resetWith p).storeBytes p.entryPc rom).mem.wf = true := storeFrom_wf hReset
  refine ⟨booted p rom, stepsFrom_boot p rom, fun k hk => ?_, fun k hk hClear => ?_,
    unchanged_storeBytes_twice p.entryPc p.fontBase rom p.fontData⟩
  · rw [readByte_eq_effAddr, booted, readByte_storeBytes hLoaded hk hFont]
  · have hNotFont : effAddr p.entryPc k % 4096 ∉ (List.range p.fontData.length).map (effAddr p.fontBase) := by
      simpa using hClear
    rw [readByte_eq_effAddr, booted, readByte_storeBytes_other hNotFont, readByte_storeBytes hReset hk hRom]

end Sys2Proof.Proofs
end

section
/-! The sprite draw pixel by pixel (R142 to R145): the bits of a row mask, the sprite's pixels and the screen's after a
draw, then the obligations. -/

namespace Sys2Proof.Proofs

open Sys2Proof Sys2Proof.Machine

/-! ## The bits of a row mask -/

/-- R142: the row mask is the byte, moved around the 64 columns. Bit `i` of it is bit `i + col + 8` of the byte, modulo
64; above bit 7 a byte has no bits. -/
theorem getLsbD_spriteRow {b : Byte} {col i : Nat} (hCol : col < 64) (hi : i < 64) :
    (spriteRow b col).getLsbD i = b.getLsbD ((i + col + 8) % 64) := by
  unfold spriteRow
  split_ifs with hFits
  · by_cases hBelow : i < 56 - col
    · have hNoBit : b.getLsbD ((i + col + 8) % 64) = false := BitVec.getLsbD_of_ge b _ (by omega)
      simp [hNoBit, hBelow]
    · have hIndex : (i + col + 8) % 64 = i - (56 - col) := by omega
      simp [hIndex, hi, hBelow]
  · by_cases hBelow : i < 120 - col
    · have hIndex : (i + col + 8) % 64 = col - 56 + i := by omega
      simp [hIndex, hBelow, show col - 56 + i < 64 by omega]
    · have hIndex : (i + col + 8) % 64 = i - (120 - col) := by omega
      have hOut : ¬ col - 56 + i < 64 := by omega
      simp [hIndex, hi, hBelow, hOut]

/-- Settles O25: a rotation to the right by the column reads bit `i + col` modulo 64, and the byte at the left edge has
its bits from 56 up. -/
theorem spriteRowIsARotation : Obligations.SpriteRowIsARotation := by
  refine fun b col hCol => BitVec.eq_of_getLsbD_eq fun i hi => ?_
  have hRotated : ((b.setWidth 64 <<< 56).rotateRight col).getLsbD i
      = (b.setWidth 64 <<< 56).getLsbD ((i + col) % 64) := by
    rw [BitVec.getLsbD_rotateRight, Nat.mod_eq_of_lt hCol]
    by_cases hBelow : i < 64 - col
    · simp [hBelow, show (i + col) % 64 = col + i by omega]
    · simp [hBelow, hi, show (i + col) % 64 = i - (64 - col) by omega]
  rw [getLsbD_spriteRow hCol hi, hRotated]
  by_cases hByte : (i + col) % 64 < 56
  · have hNoBit : b.getLsbD ((i + col + 8) % 64) = false := BitVec.getLsbD_of_ge b _ (by omega)
    simp [hNoBit, hByte]
  · have hIndex : (i + col + 8) % 64 = (i + col) % 64 - 56 := by omega
    simp [hIndex, hByte, show (i + col) % 64 < 64 by omega]

theorem ne_zero_iff_exists_bit {w : Nat} (m : BitVec w) : m ≠ 0#w ↔ ∃ i < w, m.getLsbD i = true := by
  rw [← not_iff_not, not_not]
  refine ⟨fun hZero => by simp [hZero], fun hNone => BitVec.eq_of_getLsbD_eq fun i hi => ?_⟩
  rw [BitVec.getLsbD_zero, Bool.eq_false_iff]
  exact fun hBit => hNone ⟨i, hi, hBit⟩

/-- Pixel `c` of the row mask, from the left, is the pixel `j` of the byte with `c = col + j` modulo 64. -/
theorem spriteRow_pixel_iff {b : Byte} {col c : Nat} (hCol : col < 64) (hc : c < 64) :
    (spriteRow b col).getLsbD (63 - c) = true ↔ ∃ j < 8, (col + j) % 64 = c ∧ b.getLsbD (7 - j) = true := by
  rw [getLsbD_spriteRow hCol (by omega)]
  constructor
  · intro hBit
    have hInByte : (63 - c + col + 8) % 64 < 8 := BitVec.lt_of_getLsbD hBit
    refine ⟨7 - (63 - c + col + 8) % 64, by omega, by omega, ?_⟩
    rwa [Nat.sub_sub_self (by omega)]
  · rintro ⟨j, hj, rfl, hBit⟩
    rwa [show (63 - (col + j) % 64 + col + 8) % 64 = 7 - j by omega]

/-! ## Pixels of the sprite and of the screen -/

section
variable {x y : Reg} {n : Fin 16} {s : State} {r : Fin 32} {c : Fin 64}

/-- The sprite's pixels on row `r` are the bits of the mask of the sprite row that lands there. -/
theorem spritePixel_iff :
    s.spritePixel x y n r c ↔
      ∃ k < n.val, s.targetRow y k = r ∧ (s.spriteMask x k).getLsbD (63 - c.val) = true := by
  have hMask : ∀ k, (s.spriteMask x k).getLsbD (63 - c.val) = true ↔
      ∃ j < 8, ((s.getV x).toNat + j) % 64 = c.val ∧ (s.readByte (effAddr s.i k)).getLsbD (7 - j) = true := fun k => by
    rw [State.spriteMask, spriteRow_pixel_iff (Nat.mod_lt _ (by decide)) c.isLt]
    simp only [Nat.mod_add_mod]
  constructor
  · rintro ⟨k, j, hk, hj, hRow, hColumn, hBit⟩
    exact ⟨k, hk, Fin.ext hRow, (hMask k).mpr ⟨j, hj, hColumn, hBit⟩⟩
  · rintro ⟨k, hk, hRow, hBit⟩
    obtain ⟨j, hj, hColumn, hBit⟩ := (hMask k).mp hBit
    exact ⟨k, j, hk, hj, congrArg Fin.val hRow, hColumn, hBit⟩

/-- R143: a draw XORs the sprite onto the screen. -/
theorem pixel_drawn_iff :
    (drawn x y n s).pixel r c = true ↔ (s.pixel r c = true ↔ ¬ s.spritePixel x y n r c) := by
  rw [spritePixel_iff]
  by_cases hTarget : ∃ k < n.val, s.targetRow y k = r
  · obtain ⟨k, hk, hRow⟩ := hTarget
    have hSprite : (∃ k' < n.val, s.targetRow y k' = r ∧ (s.spriteMask x k').getLsbD (63 - c.val) = true)
        ↔ (s.spriteMask x k).getLsbD (63 - c.val) = true := by
      refine ⟨fun ⟨k', hk', hRow', hBit⟩ => ?_, fun hBit => ⟨k, hk, hRow, hBit⟩⟩
      rwa [targetRow_inj (by omega) (by omega) (hRow.trans hRow'.symm)]
    rw [hSprite, State.pixel, fbReadRow_drawn_of_target hk (congrArg Fin.val hRow), BitVec.getLsbD_xor, State.pixel]
    cases (s.fbReadRow r).getLsbD (63 - c.val) <;> cases (s.spriteMask x k).getLsbD (63 - c.val) <;> simp
  · have hNoSprite : ¬ ∃ k < n.val, s.targetRow y k = r ∧ (s.spriteMask x k).getLsbD (63 - c.val) = true :=
      fun ⟨k, hk, hRow, _⟩ => hTarget ⟨k, hk, hRow⟩
    rw [State.pixel, fbReadRow_drawn_of_not_target fun k hk hRow => hTarget ⟨k, hk, Fin.ext hRow⟩]
    simp [hNoSprite, State.pixel]

/-- A row is not empty exactly if it has a set pixel. -/
theorem row_ne_zero_iff (m : Row) : m ≠ 0#64 ↔ ∃ c : Fin 64, m.getLsbD (63 - c.val) = true := by
  rw [ne_zero_iff_exists_bit]
  constructor
  · rintro ⟨i, hi, hBit⟩
    exact ⟨⟨63 - i, by omega⟩, by rwa [Nat.sub_sub_self (by omega)]⟩
  · rintro ⟨c, hBit⟩
    exact ⟨63 - c.val, by omega, hBit⟩

/-- R143, R144: the flag is set exactly when a set pixel is met by a sprite pixel. -/
theorem getV_vf_drawn_iff :
    (drawn x y n s).getV vf = 1#8 ↔ ∃ r c, s.pixel r c = true ∧ s.spritePixel x y n r c := by
  have hRows : (drawn x y n s).getV vf = 1#8 ↔
      ∃ k < n.val, s.fbReadRow (s.targetRow y k) &&& s.spriteMask x k ≠ 0#64 := by
    refine ⟨fun hFlag => ?_, getV_vf_drawn_of_collision⟩
    by_contra hNone
    rw [getV_vf_drawn_of_no_collision fun k hk => by_contra fun hBit => hNone ⟨k, hk, hBit⟩] at hFlag
    exact absurd hFlag (by decide)
  rw [hRows]
  simp only [row_ne_zero_iff, BitVec.getLsbD_and, Bool.and_eq_true, spritePixel_iff]
  constructor
  · rintro ⟨k, hk, c, hScreen, hSprite⟩
    exact ⟨s.targetRow y k, c, hScreen, k, hk, rfl, hSprite⟩
  · rintro ⟨_, c, hScreen, k, hk, rfl, hSprite⟩
    exact ⟨k, hk, c, hScreen, hSprite⟩

theorem getV_vf_drawn_bit : (drawn x y n s).getV vf = 1#8 ∨ (drawn x y n s).getV vf = 0#8 := by
  rw [drawn, getV_setV_self, collisionFlag_eq]
  split_ifs
  · exact .inl rfl
  · exact .inr rfl

/-- A sprite with a set bit has a pixel on the screen, wherever it is drawn. -/
theorem exists_spritePixel_iff :
    (∃ r c, s.spritePixel x y n r c) ↔ ∃ k < n.val, s.readByte (effAddr s.i k) ≠ 0#8 := by
  simp only [ne_zero_iff_exists_bit]
  constructor
  · rintro ⟨r, c, k, j, hk, hj, -, -, hBit⟩
    exact ⟨k, hk, 7 - j, by omega, hBit⟩
  · rintro ⟨k, hk, b, hb, hBit⟩
    refine ⟨s.targetRow y k, ⟨((s.getV x).toNat + (7 - b)) % 64, Nat.mod_lt _ (by decide)⟩, k, 7 - b, hk, by omega, rfl,
      rfl, ?_⟩
    rwa [Nat.sub_sub_self (by omega)]

/-! ## Two draws -/

/-- With VF no coordinate, a draw leaves what a draw reads but the framebuffer. -/
theorem spritePixel_drawn (hx : x ≠ vf) (hy : y ≠ vf) :
    (drawn x y n s).spritePixel x y n r c ↔ s.spritePixel x y n r c := by
  obtain ⟨hRegs, hMem, hIndex, -⟩ := unchanged_drawn x y n s
  simp only [State.spritePixel, hRegs x (by simpa using hx), hRegs y (by simpa using hy), hIndex rfl,
    fun a => hMem a (by simp)]

end

/-- Two framebuffers with the same pixels are the same. -/
theorem fb_eq_of_pixel {s t : State} (h : ∀ r c, t.pixel r c = true ↔ s.pixel r c = true) : t.fb = s.fb := by
  refine Vector.ext fun r hr => BitVec.eq_of_getLsbD_eq fun b hb => Bool.eq_iff_iff.mpr ?_
  have hPixel := h ⟨r, hr⟩ ⟨63 - b, by omega⟩
  rwa [State.pixel, State.pixel, Nat.sub_sub_self (by omega)] at hPixel

/-! ## The obligations -/

/-- Settles O27: the placement derived at the end of R142 is that of the row masks. -/
theorem drawXorsEachPixelAndFlagsCollision : Obligations.DrawXorsEachPixelAndFlagsCollision := by
  intro x y n s hPass
  exact ⟨drawn x y n s, (exec_drw x y n s).trans (guarded_of_pass hPass), fun r c => pixel_drawn_iff,
    getV_vf_drawn_bit, getV_vf_drawn_iff, unchanged_drawn x y n s⟩

/-- Settles O28: both draws place the same sprite, so the second takes away what the first put, and meets the pixels
that the first set. -/
theorem drawingTwiceErasesTheSprite : Obligations.DrawingTwiceErasesTheSprite := by
  intro x y n s hx hy
  have hRun : ∀ s', exec (.drw x y n) s' = .next (drawn x y n s') := fun s' =>
    (exec_drw x y n s').trans (guarded_of_pass (blocked_of_ne hx))
  have hFlag : (drawn x y n (drawn x y n s)).getV vf = 1#8 ↔
      ∃ r c, s.pixel r c = false ∧ s.spritePixel x y n r c := by
    simp only [getV_vf_drawn_iff, spritePixel_drawn hx hy, pixel_drawn_iff]
    refine exists_congr fun r => exists_congr fun c => and_congr_left fun hSprite => ?_
    simp [hSprite]
  refine ⟨_, _, hRun s, hRun _, fb_eq_of_pixel fun r c => ?_, hFlag, fun hEmpty => ?_⟩
  · rw [pixel_drawn_iff, pixel_drawn_iff, spritePixel_drawn hx hy]
    tauto
  · rw [hFlag, ← exists_spritePixel_iff (x := x) (y := y)]
    simp [State.pixel, hEmpty]

end Sys2Proof.Proofs
end
